-- ==== Sys2Proof/Word.lean ====
section
/-! DEFINITION. The machine's words: bytes (field elements), 32-bit words, and the numbers of element registers and CSRs. -/

namespace Sys2Proof

/-- A byte of LMEM, or a field element (R2, R8). -/
abbrev Byte := BitVec 8

/-- A command word, a CSR or the program counter (R23, R25, R100). -/
abbrev Word := BitVec 32

/-- The number of an element register, 0 to 15 (R21, R110). -/
abbrev Reg := Fin 16

/-- A CSR index as a command's 6-bit field holds it (R25, R101). -/
abbrev CsrIx := Fin 64

end Sys2Proof
end

