-- ==== Sys2Proof/Config.lean ====
section
/-! DEFINITION. What an implementation fixes (R7), and the free values of the spec: draws no proof can see. -/

namespace Sys2Proof.Config

/-- The open parameters of R7 that a rule depends on. `lmemExp` holds the legal sizes only: LMEM_BYTES is a power
of two from 4096 to 4194304. `blockIndex` holds BLOCK_BASE in units of 8 MiB, so that every value is legal. -/
structure Params where
  lmemExp    : Fin 11
  blockIndex : Nat
  deriving DecidableEq, Repr

/-- LMEM_BYTES (R7): 2^12 to 2^22. -/
def Params.lmemBytes (p : Params) : Nat := 2 ^ (12 + p.lmemExp.val)

/-- BLOCK_BASE (R7, R77): an 8 MiB-aligned system address. -/
def Params.blockBase (p : Params) : Nat := 8388608 * p.blockIndex

/-- The parameters of a default engine: LMEM_BYTES = 262144 (R7). DESIGN CHOICE (log 4): BLOCK_BASE = 0. -/
def defaultParams : Params := { lmemExp := 6, blockIndex := 0 }

/-- What the RNG sends to a `fill(K)` request (R188). `bytes r` answers the request exactly when `r` has K bytes;
with any other length it is no answer and the wait goes on (log 3). -/
inductive RngAnswer where
  | unavailable
  | bytes (r : List Byte)
  deriving DecidableEq, Repr, Inhabited

/-- FREE VALUE (R89, I1, I2; log 1): what the byte of LMEM at an address holds from the `rst_n` reset numbered
`epoch` until it is written. -/
opaque lmemDraw (epoch addr : Nat) : Byte

/-- FREE VALUE (R299, I3; log 6): what a byte of an aborted macro command's output regions holds afterwards. -/
opaque abortDraw (n addr : Nat) : Byte

/-- FREE VALUE (R188, R264, I4, I5, I6; log 3): what the RNG sends when no scripted answer is left. -/
opaque rngDraw (n : Nat) : RngAnswer

end Sys2Proof.Config
end

