-- ==== Sys2Proof/Machine/State.lean ====
section
/-! DEFINITION. The state of the engine, the reasons a step can stop, and the state right after reset. -/

namespace Sys2Proof.Machine

/-- LMEM as the bytes written since `rst_n`: (address, byte) pairs with strictly rising addresses (R53, R70; log 14).
An unlisted address holds no written value; what reading it gives is said once, in `State.readByte`. -/
abbrev Memory := List Host.Cell

/-- The canonical form: addresses strictly rising. -/
abbrev Memory.wf (m : Memory) : Prop := m.Pairwise (fun x y => x.1 < y.1)

/-- The engine's faults (R252). `Machine.Fault` below is not this: taking one of these is a next state (R255, log 9). -/
inductive FaultCode where
  | invalidSecret
  | invalidThreshold
  | invalidShareCount
  | randomUnavailable
  | insufficientShares
  | outOfRangeX
  | duplicateX
  | inconsistentShareLength
  /-- Never raised (R265). -/
  | invalidShareValue
  | divideByZero
  | illegalCommand
  /-- Raised by START only (R262). -/
  | fetchMisaligned
  | fetchRange
  | addressRange
  | bufferOverlap
  deriving DecidableEq, Repr

/-- A fault to raise: its code, and the value it records in ERRINFO (R253). -/
structure Trap where
  code : FaultCode
  info : Word
  deriving DecidableEq, Repr

/-- The CSRs an EVAL or SPLIT reads once, at its start (R181). A SPLIT waiting on the RNG is in flight with them
(R24, R188, R299). -/
structure GenJob where
  secAddr  : Word
  secLen   : Word
  needed   : Word
  total    : Word
  coefAddr : Word
  outAddr  : Word
  descAddr : Word
  deriving DecidableEq, Repr

/-- The width of a host access, in bytes 1, 2 or 4 (R78). -/
inductive HostWidth where
  | one | two | four
  deriving DecidableEq, Repr

/-- A host access at a system address (R77, R78). A write's data is the low `width` bytes of `data` (log 11). -/
inductive HostOp where
  | read (addr : Nat) (width : HostWidth)
  | write (addr : Nat) (width : HostWidth) (data : Word)
  deriving DecidableEq, Repr

/-- The response to a host access: OK or ERROR, with the data of a read (R78). -/
structure HostResp where
  ok   : Bool
  data : Word
  deriving DecidableEq, Repr

/-- What happens next (R20, R83, R254; log 2). -/
inductive Event where
  /-- The engine's turn. -/
  | engine
  /-- A host access between two engine steps. -/
  | host (op : HostOp)
  /-- The host writes CTRL.SRST while the engine's next command is in flight (R299). -/
  | srstInFlight
  /-- `rst_n` is driven low (R290). -/
  | rstLow
  /-- `rst_n` is driven high (R290). -/
  | rstHigh
  deriving DecidableEq, Repr

/-- The state. The names are those of R20 to R53; see INVENTORY.md for each field's rule and reset value. -/
structure State where
  /-- LMEM_BYTES and BLOCK_BASE (R7, R47); no step changes them. -/
  params   : Config.Params
  /-- Element registers E0 to E15 (R21). -/
  e        : Vector Byte 16
  /-- PC (R23, R35). -/
  pc       : Word
  /-- STATUS.BUSY (R24, R32). -/
  busy     : Bool
  /-- STATUS.DONE (R32). -/
  done     : Bool
  /-- STATUS.ERR (R32). -/
  err      : Bool
  /-- STATUS.ERRCODE (R32, R252). -/
  errCode  : Byte
  /-- The SPLIT waiting on the RNG; STATUS.RNGWAIT is 1 exactly when there is one (R24, R188; log 13). -/
  inflight : Option GenJob
  /-- IRQEN.DONE_IE (R33). -/
  doneIe   : Bool
  /-- IRQEN.ERR_IE (R33). -/
  errIe    : Bool
  /-- ENTRY (R34). -/
  entry    : Word
  /-- ERRPC (R36). -/
  errPc    : Word
  /-- ERRINFO (R37). -/
  errInfo  : Word
  /-- SEC_ADDR (R38). -/
  secAddr  : Word
  /-- SEC_LEN (R39). -/
  secLen   : Word
  /-- NEEDED (R40). -/
  needed   : Word
  /-- TOTAL (R41). -/
  total    : Word
  /-- COEF_ADDR (R42). -/
  coefAddr : Word
  /-- OUT_ADDR (R43). -/
  outAddr  : Word
  /-- COUNT (R44). -/
  count    : Word
  /-- DESC_ADDR (R45). -/
  descAddr : Word
  /-- W_ADDR (R46). -/
  wAddr    : Word
  /-- LMEM (R53, R70). -/
  mem      : Memory
  /-- The input `rst_n` is held low (R55, R290). -/
  rstLow   : Bool
  /-- The model's own: the number of `rst_n` resets that have redrawn LMEM (R89; log 1). -/
  epoch    : Nat
  /-- The model's own: a counter for the free values of RNG answers and aborted outputs (log 3, log 6). -/
  draws    : Nat
  /-- The model's own: what happens next; when it is empty every turn is the engine's (log 2). -/
  schedule : List Event
  /-- The model's own: the RNG's coming answers; past its end they are free values (log 3). -/
  rngScript : List Config.RngAnswer
  /-- The model's own: the response to the last host access (R78; log 12). -/
  hostResp : Option HostResp
  deriving DecidableEq, Repr

/-- Reasons a step stops with a fault: NONE. Every fault the spec gives the engine is taken, as a next state
(R250, R255; log 9), so this type has no constructor. Safe: no step can answer it. -/
inductive Fault where
  deriving DecidableEq, Repr

/-- Reasons a step has no meaning. -/
inductive Refusal where
  /-- Raised by an arm of exec for a command without a meaning; no arm of this model raises it. Safe. -/
  | notModelled (mnemonic : String)
  /-- Raised by a step whose event is a host access while `rst_n` is low: R290 gives it no defined response, and
  I12 treats it as no transition (log 10). Safe. -/
  | hostAccessInReset
  deriving DecidableEq, Repr

/-- The machine right after an `rst_n` reset, `rst_n` high again (R291): every register 0, the engine idle, LMEM
unwritten. The model's own fields start at the values logs 1, 2, 3, 4, 6 and 12 name. -/
def State.reset : State where
  params := Config.defaultParams
  e := Vector.replicate 16 0
  pc := 0
  busy := false
  done := false
  err := false
  errCode := 0
  inflight := none
  doneIe := false
  errIe := false
  entry := 0
  errPc := 0
  errInfo := 0
  secAddr := 0
  secLen := 0
  needed := 0
  total := 0
  coefAddr := 0
  outAddr := 0
  count := 0
  descAddr := 0
  wAddr := 0
  mem := []
  rstLow := false
  epoch := 0
  draws := 0
  schedule := []
  rngScript := []
  hostResp := none

end Sys2Proof.Machine
end

