-- ==== Sys2Proof/Machine/Field.lean ====
section
/-! DEFINITION. Field arithmetic on elements (R160 to R162), the Horner step and evaluation (R180, R187), and the
Lagrange weights and the combination at x = 0 (R214, R216), on lists of elements. -/

namespace Sys2Proof.Machine

/-- Field addition, which is also subtraction (R160). -/
def gxor (a b : Byte) : Byte := a ^^^ b

/-- gmul(a, b) (R161). -/
def gmul (a b : Byte) : Byte :=
  if a = 0 ∨ b = 0 then 0 else expTable ((logTable a).toNat + (logTable b).toNat)

/-- The quotient of R162 for a nonzero divisor: the index is LOG[a] - LOG[b] + 255, in 1 to 509. -/
def gquot (a b : Byte) : Byte :=
  if a = 0 then 0 else expTable ((logTable a).toNat + 255 - (logTable b).toNat)

/-- gdiv(a, b) (R162): none is the fault DivideByZero, tested first. -/
def gdiv (a b : Byte) : Option Byte := if b = 0 then none else some (gquot a b)

/-- One Horner step: res * x + a_k (R180). -/
def hornerStep (res x ak : Byte) : Byte := gxor (gmul res x) ak

/-- Horner evaluation at x of the polynomial with these coefficients, highest degree first (R187). -/
def horner (x : Byte) : List Byte → Byte
  | [] => 0
  | top :: rest => rest.foldl (fun res ak => hornerStep res x ak) top

/-- The numerator of weight i (R214): the product of the other x_j. -/
def weightNum (xs : List Byte) (i : Nat) : Byte := (xs.eraseIdx i).foldl gmul 1

/-- The denominator of weight i (R214): the product of x_j xor x_i over the other j. -/
def weightDen (xs : List Byte) (i : Nat) : Byte :=
  (xs.eraseIdx i).foldl (fun den xj => gmul den (gxor xj (xs.getD i 0))) 1

/-- The first weight whose denominator is zero (R214): the DivideByZero that R266 says is unreachable. -/
def zeroDenominator (xs : List Byte) : Option Nat := (List.range xs.length).find? fun i => weightDen xs i == 0

/-- The weights lambda_i, where no denominator is zero (R214). -/
def lagrangeWeights (xs : List Byte) : List Byte :=
  (List.range xs.length).map fun i => gquot (weightNum xs i) (weightDen xs i)

/-- One recovered byte from one byte of each share and the weights (R216). -/
def combine (ys ws : List Byte) : Byte := (ys.zip ws).foldl (fun acc yw => gxor acc (gmul yw.1 yw.2)) 0

end Sys2Proof.Machine
end

