-- ==== Sys2Proof/Syntax.lean ====
section
/-! DEFINITION. The commands: one constructor per row of spec/opcode_table.json. -/

namespace Sys2Proof

/-- A command of command set version 1 (R4, R111), with the fields of its format (R101 to R110). -/
inductive Instr where
  | nop
  | halt
  | csrwi (csr : CsrIx) (imm20 : BitVec 20)
  | csrr (rd : Reg) (csr : CsrIx)
  | gldi (rd : Reg) (imm8 : BitVec 8)
  | ldb (rd : Reg) (addr22 : BitVec 22)
  /-- `rs` is the register stored; the format's `rd` field names it (R106, R137). -/
  | stb (rs : Reg) (addr22 : BitVec 22)
  | gxor (rd rs1 rs2 : Reg)
  | gmul (rd rs1 rs2 : Reg)
  | gdiv (rd rs1 rs2 : Reg)
  | gexp (rd rs1 : Reg)
  | glog (rd rs1 : Reg)
  | hstep (rd rs1 rs2 : Reg)
  | eval
  | split
  | lwgt
  | lcomb
  | recover
  deriving DecidableEq, Repr

end Sys2Proof
end

