-- ==== Sys2Proof/WellFormed.lean ====
section
/-! DEFINITION. Which commands have an encoding (R111's extra conditions). -/

namespace Sys2Proof

/-- CSRWI reaches the parameter CSRs 8 to 16 only (R27, R111, R133). -/
def csrwIndexOk (n : CsrIx) : Bool := 8 ≤ n.val && n.val ≤ 16

/-- CSRR reaches the defined CSRs 0 to 17 only (R27, R111, R134). -/
def csrrIndexOk (n : CsrIx) : Bool := n.val ≤ 17

/-- The command is one that some word encodes. -/
def Instr.wellFormed : Instr → Bool
  | .nop => true
  | .halt => true
  | .csrwi n _ => csrwIndexOk n
  | .csrr _ n => csrrIndexOk n
  | .gldi _ _ => true
  | .ldb _ _ => true
  | .stb _ _ => true
  | .gxor _ _ _ => true
  | .gmul _ _ _ => true
  | .gdiv _ _ _ => true
  | .gexp _ _ => true
  | .glog _ _ => true
  | .hstep _ _ _ => true
  | .eval => true
  | .split => true
  | .lwgt => true
  | .lcomb => true
  | .recover => true

end Sys2Proof
end

