-- ==== Sys2Proof/Decode.lean ====
section
/-! DEFINITION. Decoding (R112), total on any bytes and rejecting by name, and encoding (R100 to R111). -/

namespace Sys2Proof

/-- Why bytes are no command (R113). -/
inductive Illegal where
  /-- Fewer than four bytes were given; the engine itself always fetches four. -/
  | truncated
  /-- R113 (a), (b): an opcode with no row in R111. -/
  | reservedOpcode
  /-- R113 (c): a 1 in a bit the format lists as z. -/
  | zeroBitSet
  /-- R113 (d): CSRWI with csrw outside 8 to 16. -/
  | csrwOutOfRange
  /-- R113 (e): CSRR with csrr outside 0 to 17. -/
  | csrrOutOfRange
  deriving DecidableEq, Repr

/-- The rows of the opcode map (R111). -/
inductive Op where
  | nop | halt | csrwi | csrr | gldi | ldb | stb | gxor | gmul | gdiv | gexp | glog | hstep
  | eval | split | lwgt | lcomb | recover
  deriving DecidableEq, Repr

/-- The row of a 6-bit opcode, none for the reserved ones (R111). -/
def opOfCode (code : BitVec 6) : Option Op :=
  match code.toNat with
  | 0x01 => some .nop
  | 0x02 => some .halt
  | 0x03 => some .csrwi
  | 0x04 => some .csrr
  | 0x05 => some .gldi
  | 0x06 => some .ldb
  | 0x07 => some .stb
  | 0x08 => some .gxor
  | 0x09 => some .gmul
  | 0x0A => some .gdiv
  | 0x0B => some .gexp
  | 0x0C => some .glog
  | 0x0D => some .hstep
  | 0x10 => some .eval
  | 0x11 => some .split
  | 0x12 => some .lwgt
  | 0x13 => some .lcomb
  | 0x14 => some .recover
  | _ => none

/-- The `match` column of R111. -/
def opMatch : Op → Word
  | .nop => 0x04000000
  | .halt => 0x08000000
  | .csrwi => 0x0C000000
  | .csrr => 0x10000000
  | .gldi => 0x14000000
  | .ldb => 0x18000000
  | .stb => 0x1C000000
  | .gxor => 0x20000000
  | .gmul => 0x24000000
  | .gdiv => 0x28000000
  | .gexp => 0x2C000000
  | .glog => 0x30000000
  | .hstep => 0x34000000
  | .eval => 0x40000000
  | .split => 0x44000000
  | .lwgt => 0x48000000
  | .lcomb => 0x4C000000
  | .recover => 0x50000000

/-- The `mask` column of R111. -/
def opMask : Op → Word
  | .nop | .halt | .eval | .split | .lwgt | .lcomb | .recover => 0xFFFFFFFF
  | .csrwi | .ldb | .stb => 0xFC000000
  | .csrr => 0xFC00FFFF
  | .gldi => 0xFC3FFF00
  | .gxor | .gmul | .gdiv | .hstep => 0xFC003FFF
  | .gexp | .glog => 0xFC03FFFF

/-- Field `rd` (R101): bits 25:22. -/
def fieldRd (w : Word) : Reg := (w.extractLsb' 22 4).toFin

/-- Field `rs1` (R101): bits 21:18. -/
def fieldRs1 (w : Word) : Reg := (w.extractLsb' 18 4).toFin

/-- Field `rs2` (R101): bits 17:14. -/
def fieldRs2 (w : Word) : Reg := (w.extractLsb' 14 4).toFin

/-- Field `imm8` (R101): bits 7:0. -/
def fieldImm8 (w : Word) : BitVec 8 := w.extractLsb' 0 8

/-- Field `addr22` (R101): bits 21:0. -/
def fieldAddr22 (w : Word) : BitVec 22 := w.extractLsb' 0 22

/-- Field `csrw` (R101): bits 25:20. -/
def fieldCsrw (w : Word) : CsrIx := (w.extractLsb' 20 6).toFin

/-- Field `imm20` (R101): bits 19:0. -/
def fieldImm20 (w : Word) : BitVec 20 := w.extractLsb' 0 20

/-- Field `csrr` (R101): bits 21:16. -/
def fieldCsrr (w : Word) : CsrIx := (w.extractLsb' 16 6).toFin

/-- The command of a row with the fields of its format (R102 to R108), and R111's extra conditions. -/
def opFields (op : Op) (w : Word) : Except Illegal Instr :=
  match op with
  | .nop => .ok .nop
  | .halt => .ok .halt
  | .csrwi =>
    if csrwIndexOk (fieldCsrw w) then .ok (.csrwi (fieldCsrw w) (fieldImm20 w)) else .error .csrwOutOfRange
  | .csrr =>
    if csrrIndexOk (fieldCsrr w) then .ok (.csrr (fieldRd w) (fieldCsrr w)) else .error .csrrOutOfRange
  | .gldi => .ok (.gldi (fieldRd w) (fieldImm8 w))
  | .ldb => .ok (.ldb (fieldRd w) (fieldAddr22 w))
  | .stb => .ok (.stb (fieldRd w) (fieldAddr22 w))
  | .gxor => .ok (.gxor (fieldRd w) (fieldRs1 w) (fieldRs2 w))
  | .gmul => .ok (.gmul (fieldRd w) (fieldRs1 w) (fieldRs2 w))
  | .gdiv => .ok (.gdiv (fieldRd w) (fieldRs1 w) (fieldRs2 w))
  | .gexp => .ok (.gexp (fieldRd w) (fieldRs1 w))
  | .glog => .ok (.glog (fieldRd w) (fieldRs1 w))
  | .hstep => .ok (.hstep (fieldRd w) (fieldRs1 w) (fieldRs2 w))
  | .eval => .ok .eval
  | .split => .ok .split
  | .lwgt => .ok .lwgt
  | .lcomb => .ok .lcomb
  | .recover => .ok .recover

/-- The decoding procedure of R112, on a 32-bit word. -/
def decodeWord (w : Word) : Except Illegal Instr :=
  match opOfCode (w.extractLsb' 26 6) with
  | none => .error .reservedOpcode
  | some op => if w &&& opMask op = opMatch op then opFields op w else .error .zeroBitSet

/-- A word with the field `v` at bit `lo` and 0 elsewhere. -/
def placeField {n : Nat} (v : BitVec n) (lo : Nat) : Word := v.setWidth 32 <<< lo

/-- Four bytes in address order as one word: the lowest address holds bits 7:0 (R71). -/
def wordOfBytes (b0 b1 b2 b3 : Byte) : Word :=
  placeField b0 0 ||| placeField b1 8 ||| placeField b2 16 ||| placeField b3 24

/-- The byte of `w` at offset `i` from the lowest address (R71). -/
def byteOfWord (w : Word) (i : Nat) : Byte := w.extractLsb' (8 * i) 8

/-- A word's four bytes in address order (R71). -/
def bytesOfWord (w : Word) : List Byte := [byteOfWord w 0, byteOfWord w 1, byteOfWord w 2, byteOfWord w 3]

/-- The decoder on bytes: a command is always four bytes (R100). It answers the command and the bytes after it. -/
def decode : List Byte → Except Illegal (Instr × List Byte)
  | b0 :: b1 :: b2 :: b3 :: rest =>
    match decodeWord (wordOfBytes b0 b1 b2 b3) with
    | .ok i => .ok (i, rest)
    | .error e => .error e
  | _ => .error .truncated

/-- Format N (R102). -/
def formatN (op : BitVec 6) : Word := placeField op 26

/-- Format C (R103). -/
def formatC (op : BitVec 6) (csrw : CsrIx) (imm20 : BitVec 20) : Word :=
  placeField op 26 ||| placeField (BitVec.ofFin csrw : BitVec 6) 20 ||| placeField imm20 0

/-- Format CR (R104). -/
def formatCR (op : BitVec 6) (rd : Reg) (csrr : CsrIx) : Word :=
  placeField op 26 ||| placeField (BitVec.ofFin rd : BitVec 4) 22 ||| placeField (BitVec.ofFin csrr : BitVec 6) 16

/-- Format I (R105). -/
def formatI (op : BitVec 6) (rd : Reg) (imm8 : BitVec 8) : Word :=
  placeField op 26 ||| placeField (BitVec.ofFin rd : BitVec 4) 22 ||| placeField imm8 0

/-- Format M (R106). -/
def formatM (op : BitVec 6) (rd : Reg) (addr22 : BitVec 22) : Word :=
  placeField op 26 ||| placeField (BitVec.ofFin rd : BitVec 4) 22 ||| placeField addr22 0

/-- Format R (R107). -/
def formatR (op : BitVec 6) (rd rs1 rs2 : Reg) : Word :=
  placeField op 26 ||| placeField (BitVec.ofFin rd : BitVec 4) 22 ||| placeField (BitVec.ofFin rs1 : BitVec 4) 18 |||
    placeField (BitVec.ofFin rs2 : BitVec 4) 14

/-- Format R1 (R108). -/
def formatR1 (op : BitVec 6) (rd rs1 : Reg) : Word :=
  placeField op 26 ||| placeField (BitVec.ofFin rd : BitVec 4) 22 ||| placeField (BitVec.ofFin rs1 : BitVec 4) 18

/-- The word of a command (R102 to R111). -/
def encodeWord : Instr → Word
  | .nop => formatN 0x01
  | .halt => formatN 0x02
  | .csrwi csrw imm20 => formatC 0x03 csrw imm20
  | .csrr rd csrr => formatCR 0x04 rd csrr
  | .gldi rd imm8 => formatI 0x05 rd imm8
  | .ldb rd addr22 => formatM 0x06 rd addr22
  | .stb rs addr22 => formatM 0x07 rs addr22
  | .gxor rd rs1 rs2 => formatR 0x08 rd rs1 rs2
  | .gmul rd rs1 rs2 => formatR 0x09 rd rs1 rs2
  | .gdiv rd rs1 rs2 => formatR 0x0A rd rs1 rs2
  | .gexp rd rs1 => formatR1 0x0B rd rs1
  | .glog rd rs1 => formatR1 0x0C rd rs1
  | .hstep rd rs1 rs2 => formatR 0x0D rd rs1 rs2
  | .eval => formatN 0x10
  | .split => formatN 0x11
  | .lwgt => formatN 0x12
  | .lcomb => formatN 0x13
  | .recover => formatN 0x14

/-- The four bytes of a command as LMEM stores them (R71, R100). -/
def encode (i : Instr) : List Byte := bytesOfWord (encodeWord i)

/-- What the decoder reads from a command whose bits are `w`, bits at and above `nbits` zero. -/
def decodeTableWord (nbits w : Nat) : Option Instr :=
  match decode (bytesOfWord (BitVec.ofNat 32 (w % 2 ^ nbits))) with
  | .ok (i, _) => some i
  | .error _ => none

end Sys2Proof
end

