-- ==== Sys2Proof/Machine/Flags.lean ====
section
/-! DEFINITION. Fault numbers (R252), the STATUS and IRQEN words (R32, R33), and the interrupt output (R54). -/

namespace Sys2Proof.Machine

/-- ERRCODE's number for a fault (R252). -/
def faultNumber : FaultCode → Byte
  | .invalidSecret => 0x01
  | .invalidThreshold => 0x02
  | .invalidShareCount => 0x03
  | .randomUnavailable => 0x04
  | .insufficientShares => 0x05
  | .outOfRangeX => 0x06
  | .duplicateX => 0x07
  | .inconsistentShareLength => 0x08
  | .invalidShareValue => 0x09
  | .divideByZero => 0x0A
  | .illegalCommand => 0x10
  | .fetchMisaligned => 0x11
  | .fetchRange => 0x12
  | .addressRange => 0x13
  | .bufferOverlap => 0x14

/-- STATUS.RNGWAIT: 1 while a SPLIT waits for its `fill` answer (R24, R32). -/
def State.rngWait (s : State) : Bool := s.inflight.isSome

/-- The STATUS word (R32): bits 15:8 ERRCODE, 3 RNGWAIT, 2 ERR, 1 DONE, 0 BUSY, the rest 0. -/
def State.statusWord (s : State) : Word :=
  placeField (BitVec.ofBool s.busy) 0 ||| placeField (BitVec.ofBool s.done) 1 ||| placeField (BitVec.ofBool s.err) 2 |||
    placeField (BitVec.ofBool s.rngWait) 3 ||| placeField s.errCode 8

/-- A host write of STATUS (R32): 1 in bit 1 clears DONE; 1 in bit 2 clears ERR and ERRCODE. -/
def State.writeStatus (s : State) (v : Word) : State :=
  { s with
    done := s.done && !v.getLsbD 1
    err := s.err && !v.getLsbD 2
    errCode := if v.getLsbD 2 then 0 else s.errCode }

/-- The IRQEN word (R33). -/
def State.irqenWord (s : State) : Word :=
  placeField (BitVec.ofBool s.doneIe) 0 ||| placeField (BitVec.ofBool s.errIe) 1

/-- A host write of IRQEN (R33): bits 31:2 are ignored. -/
def State.writeIrqen (s : State) (v : Word) : State :=
  { s with doneIe := v.getLsbD 0, errIe := v.getLsbD 1 }

/-- The interrupt output (R54, R260). -/
def State.irq (s : State) : Bool := (s.done && s.doneIe) || (s.err && s.errIe)

end Sys2Proof.Machine
end

