-- ==== Sys2Proof/Machine/Operands.lean ====
section
/-! DEFINITION. Operand forms: immediates and absolute addresses (R109), ranges and regions of LMEM (R72, R74). -/

namespace Sys2Proof.Machine

/-- An 8-bit immediate is the element itself (R109). -/
def immElement (imm8 : BitVec 8) : Byte := imm8

/-- A 20-bit immediate is zero-extended to a CSR value (R109). -/
def immCsr (imm20 : BitVec 20) : Word := imm20.setWidth 32

/-- A 22-bit address is zero-extended, neither scaled nor shifted (R109). -/
def absAddr (addr22 : BitVec 22) : Nat := addr22.toNat

/-- A region: the bytes from `base` up to, not including, `base + len` (R74). -/
structure Region where
  base : Nat
  len  : Nat
  deriving DecidableEq, Repr

/-- The address lies in the region. -/
def Region.has (r : Region) (a : Nat) : Bool := r.base ≤ a && a < r.base + r.len

/-- InRange(a, n) for a memory of `size` bytes, as exact integers (R72). -/
def inRange (size a n : Nat) : Bool := a + n ≤ size

/-- Overlap of two regions (R74). -/
def overlap (p q : Region) : Bool :=
  0 < p.len && 0 < q.len && p.base < q.base + q.len && q.base < p.base + p.len

/-- The range checks of a macro command, in order (R184, R213): the base of the first region outside LMEM. -/
def rangeTrap (size : Nat) (regions : List Region) : Option Trap :=
  regions.findSome? fun r => if inRange size r.base r.len then none else some ⟨.addressRange, BitVec.ofNat 32 r.base⟩

/-- The overlap checks of a macro command, in order (R185, R215). -/
def overlapTrap (pairs : List (Region × Region)) : Option Trap :=
  pairs.findSome? fun pq => if overlap pq.1 pq.2 then some ⟨.bufferOverlap, 0⟩ else none

end Sys2Proof.Machine
end

