-- ==== Sys2Proof/Machine/Ops.lean ====
section
/-! DEFINITION. The named operations: LMEM, element registers, CSRs, the advance of PC, taking a fault, and START. -/

namespace Sys2Proof.Machine

/-- The written byte at an address, if any. -/
def Memory.read? : Memory → Nat → Option Byte
  | [], _ => none
  | (k, v) :: m, a => if k = a then some v else Memory.read? m a

/-- Write one byte, keeping the addresses strictly rising (log 14). -/
def Memory.write : Memory → Nat → Byte → Memory
  | [], a, v => [(a, v)]
  | (k, w) :: m, a, v =>
    if a < k then (a, v) :: (k, w) :: m
    else if a = k then (a, v) :: m
    else (k, w) :: Memory.write m a v

/-- Write bytes at consecutive addresses. -/
def Memory.writeBytes : Memory → Nat → List Byte → Memory
  | m, _, [] => m
  | m, a, b :: bs => Memory.writeBytes (m.write a b) (a + 1) bs

/-- InRange(a, n) (R72). -/
def State.inRange (s : State) (a n : Nat) : Bool := Machine.inRange s.params.lmemBytes a n

/-- MemRead(a, 1) (R10): the byte written last, or the draw of the last `rst_n` reset (R89; log 1). This is the one
definition of what an unlisted address reads as. -/
def State.readByte (s : State) (a : Nat) : Byte :=
  match s.mem.read? a with
  | some v => v
  | none => Config.lmemDraw s.epoch a

/-- MemRead(a, 2), little-endian (R10, R71). -/
def State.read16 (s : State) (a : Nat) : BitVec 16 :=
  (s.readByte a).setWidth 16 ||| (s.readByte (a + 1)).setWidth 16 <<< 8

/-- MemRead(a, 4), little-endian (R10, R71). -/
def State.read32 (s : State) (a : Nat) : Word :=
  wordOfBytes (s.readByte a) (s.readByte (a + 1)) (s.readByte (a + 2)) (s.readByte (a + 3))

/-- The `n` bytes from an address on, in address order. -/
def State.readBytes (s : State) (a n : Nat) : List Byte := (List.range n).map fun i => s.readByte (a + i)

/-- Write bytes of LMEM at consecutive addresses; with one byte this is MemWrite(a, 1, v) (R10). -/
def State.writeBytes (s : State) (a : Nat) (bs : List Byte) : State := { s with mem := s.mem.writeBytes a bs }

/-- MemWrite(a, n, v), little-endian, n at most 4 (R10, R71). -/
def State.memWrite (s : State) (a n : Nat) (v : Word) : State := s.writeBytes a ((bytesOfWord v).take n)

/-- E[r] (R10, R21). -/
def State.elem (s : State) (r : Reg) : Byte := s.e[r]

/-- E[r] <- v (R10, R21). -/
def State.setElem (s : State) (r : Reg) (v : Byte) : State := { s with e := s.e.set r.val v r.isLt }

/-- PC <- (PC + 4) mod 2^32 (R23, R130). -/
def State.advance (s : State) : State := { s with pc := s.pc + 4 }

/-- What a read of CSR index n gives, at the host and in CSRR (R25 to R47). -/
def State.csrRead (s : State) (n : Nat) : Word :=
  match n with
  | 0 => 0x47463031
  | 1 => 0
  | 2 => s.statusWord
  | 3 => s.irqenWord
  | 4 => s.entry
  | 5 => s.pc
  | 6 => s.errPc
  | 7 => s.errInfo
  | 8 => s.secAddr
  | 9 => s.secLen
  | 10 => s.needed
  | 11 => s.total
  | 12 => s.coefAddr
  | 13 => s.outAddr
  | 14 => s.count
  | 15 => s.descAddr
  | 16 => s.wAddr
  | 17 => BitVec.ofNat 32 s.params.lmemBytes
  | k => if h : 32 ≤ k ∧ k < 48 then (s.elem ⟨k - 32, by omega⟩).setWidth 32 else 0

/-- Write a parameter CSR, indices 8 to 16; all 32 bits are stored (R25, R38 to R46). -/
def State.setParam (s : State) (n : Nat) (v : Word) : State :=
  match n with
  | 8 => { s with secAddr := v }
  | 9 => { s with secLen := v }
  | 10 => { s with needed := v }
  | 11 => { s with total := v }
  | 12 => { s with coefAddr := v }
  | 13 => { s with outAddr := v }
  | 14 => { s with count := v }
  | 15 => { s with descAddr := v }
  | 16 => { s with wAddr := v }
  | _ => s

/-- Taking a fault (R255), from the state before the step: the step's writes are discarded, the engine stops, and the
cause, the PC and the info are recorded. PC, element registers, parameter CSRs, IRQEN, ENTRY and LMEM keep their
values (R255, R256). -/
def State.takeFault (s : State) (t : Trap) : State :=
  { s with
    inflight := none
    busy := false
    err := true
    errCode := faultNumber t.code
    errPc := s.pc
    errInfo := t.info }

/-- START with a misaligned ENTRY (R262): FetchMisaligned, BUSY stays 0. -/
def State.startFault (s : State) : State :=
  { s with
    done := false
    err := true
    errCode := faultNumber .fetchMisaligned
    pc := s.entry
    errPc := s.entry
    errInfo := s.entry }

/-- START with an aligned ENTRY (R262): the engine begins stepping. -/
def State.startRun (s : State) : State :=
  { s with done := false, err := false, errCode := 0, pc := s.entry, busy := true }

/-- START (R262), which is also the return from a fault (R257). It is ignored while BUSY. -/
def State.start (s : State) : State :=
  if s.busy then s else if s.entry.extractLsb' 0 2 ≠ 0 then s.startFault else s.startRun

/-- Every element register, CSR and STATUS field at its reset value, PC 0, no command in flight (R263, R291). LMEM,
the parameters, the level of `rst_n` and the model's own fields are kept. -/
def State.resetRegisters (s : State) : State :=
  { State.reset with
    params := s.params
    mem := s.mem
    rstLow := s.rstLow
    epoch := s.epoch
    draws := s.draws
    schedule := s.schedule
    rngScript := s.rngScript
    hostResp := s.hostResp }

end Sys2Proof.Machine
end

