-- ==== Sys2Proof/Machine/FieldCommands.lean ====
section
/-! DEFINITION. The table and arithmetic commands GEXP, GLOG (R151, R152), GXOR, GMUL, GDIV (R163 to R165) and HSTEP (R180). -/

namespace Sys2Proof.Machine

open Host (Outcome)

/-- GEXP (R151). -/
def execGexp (rd rs1 : Reg) (s : State) : Outcome State Fault Refusal :=
  .next (s.setElem rd (expTable (s.elem rs1).toNat)).advance

/-- GLOG (R152). -/
def execGlog (rd rs1 : Reg) (s : State) : Outcome State Fault Refusal :=
  .next (s.setElem rd (logTable (s.elem rs1))).advance

/-- GXOR (R163). -/
def execGxor (rd rs1 rs2 : Reg) (s : State) : Outcome State Fault Refusal :=
  .next (s.setElem rd (gxor (s.elem rs1) (s.elem rs2))).advance

/-- GMUL (R164). -/
def execGmul (rd rs1 rs2 : Reg) (s : State) : Outcome State Fault Refusal :=
  .next (s.setElem rd (gmul (s.elem rs1) (s.elem rs2))).advance

/-- GDIV (R165). -/
def execGdiv (rd rs1 rs2 : Reg) (s : State) : Outcome State Fault Refusal :=
  match gdiv (s.elem rs1) (s.elem rs2) with
  | some q => .next (s.setElem rd q).advance
  | none => .next (s.takeFault ⟨.divideByZero, 0⟩)

/-- HSTEP (R180). -/
def execHstep (rd rs1 rs2 : Reg) (s : State) : Outcome State Fault Refusal :=
  .next (s.setElem rd (hornerStep (s.elem rd) (s.elem rs1) (s.elem rs2))).advance

end Sys2Proof.Machine
end

