-- ==== Sys2Proof/Machine/Reconstruction.lean ====
section
/-! DEFINITION. Share reconstruction: the share set, its checks and regions (R210 to R216), and the commands LWGT,
LCOMB and RECOVER (R217 to R219). -/

namespace Sys2Proof.Machine

open Host (Outcome)

/-- A descriptor record (R211). -/
structure Desc where
  x   : BitVec 16
  len : BitVec 16
  ptr : Word
  deriving DecidableEq, Repr

/-- Record i of the table at DESC_ADDR (R211). -/
def State.descAt (s : State) (i : Nat) : Desc where
  x := s.read16 (s.descAddr.toNat + 8 * i)
  len := s.read16 (s.descAddr.toNat + 8 * i + 2)
  ptr := s.read32 (s.descAddr.toNat + 8 * i + 4)

/-- The share set: COUNT records (R211). -/
def State.shareSet (s : State) : List Desc := (List.range s.count.toNat).map s.descAt

/-- The common share length L, that of record 0 (R212). -/
def State.shareLen (s : State) : BitVec 16 := (s.descAt 0).len

/-- The record checks of R212 from record i on: `seen` holds the x of the records before it. Within a record the order
is OutOfRangeX, DuplicateX, InconsistentShareLength. -/
def recordTrap (xChecks lChecks : Bool) (len0 : BitVec 16) (i : Nat) (seen : List (BitVec 16)) :
    List Desc → Option Trap
  | [] => none
  | d :: ds =>
    if xChecks = true ∧ (d.x.toNat < 1 ∨ 255 < d.x.toNat) then some ⟨.outOfRangeX, BitVec.ofNat 32 i⟩
    else if xChecks = true ∧ d.x ∈ seen then some ⟨.duplicateX, BitVec.ofNat 32 i⟩
    else if lChecks = true ∧ (d.len.toNat = 0 ∨ d.len ≠ len0) then some ⟨.inconsistentShareLength, BitVec.ofNat 32 i⟩
    else recordTrap xChecks lChecks len0 (i + 1) (d.x :: seen) ds

/-- Share-set validation (R212). -/
def State.shareSetTrap (s : State) (xChecks lChecks : Bool) : Option Trap :=
  if s.count.toNat < 2 then some ⟨.insufficientShares, s.count⟩
  else if s.inRange s.descAddr.toNat (8 * s.count.toNat) then
    recordTrap xChecks lChecks s.shareLen 0 [] s.shareSet
  else some ⟨.addressRange, s.descAddr⟩

/-- Region Dt, the descriptor table (R213). -/
def State.tableRegion (s : State) : Region := ⟨s.descAddr.toNat, 8 * s.count.toNat⟩

/-- Region W, the weights (R213). -/
def State.weightRegion (s : State) : Region := ⟨s.wAddr.toNat, s.count.toNat⟩

/-- The regions Y_0 to Y_{N-1} of the share bytes (R213). -/
def State.yRegions (s : State) : List Region := s.shareSet.map fun d => ⟨d.ptr.toNat, s.shareLen.toNat⟩

/-- Region SEC, the recovered secret (R213). -/
def State.recoveredRegion (s : State) : Region := ⟨s.secAddr.toNat, s.shareLen.toNat⟩

/-- LWGT's overlap pairs (R215). -/
def State.lwgtPairs (s : State) : List (Region × Region) := [(s.weightRegion, s.tableRegion)]

/-- LCOMB's overlap pairs (R215). -/
def State.lcombPairs (s : State) : List (Region × Region) :=
  (s.recoveredRegion, s.tableRegion) :: (s.recoveredRegion, s.weightRegion) ::
    s.yRegions.map fun y => (s.recoveredRegion, y)

/-- RECOVER's overlap pairs (R215). -/
def State.recoverPairs (s : State) : List (Region × Region) :=
  (s.weightRegion, s.tableRegion) :: (s.yRegions.map fun y => (s.weightRegion, y)) ++
    (s.recoveredRegion, s.tableRegion) :: (s.yRegions.map fun y => (s.recoveredRegion, y)) ++
    [(s.weightRegion, s.recoveredRegion)]

/-- The x-coordinates as field elements: after the X checks each is in 1 to 255 (R212; log 18). -/
def State.xCoords (s : State) : List Byte := s.shareSet.map fun d => d.x.setWidth 8

/-- The weight computation's DivideByZero, with the index of the weight (R214, R266). -/
def State.weightTrap (s : State) : Option Trap :=
  (zeroDenominator s.xCoords).map fun i => ⟨.divideByZero, BitVec.ofNat 32 i⟩

/-- LWGT's checks in R217's order: the first that fails. -/
def State.lwgtTrap (s : State) : Option Trap :=
  (((s.shareSetTrap true false).or (rangeTrap s.params.lmemBytes [s.weightRegion])).or
    (overlapTrap s.lwgtPairs)).or s.weightTrap

/-- The range checks of LCOMB and RECOVER: W, Y_0 to Y_{N-1}, SEC (R213). -/
def State.combineRangeTrap (s : State) : Option Trap :=
  rangeTrap s.params.lmemBytes (s.weightRegion :: s.yRegions ++ [s.recoveredRegion])

/-- LCOMB's checks in R218's order: the first that fails. -/
def State.lcombTrap (s : State) : Option Trap :=
  ((s.shareSetTrap false true).or s.combineRangeTrap).or (overlapTrap s.lcombPairs)

/-- RECOVER's checks in R219's order: the first that fails. -/
def State.recoverTrap (s : State) : Option Trap :=
  (((s.shareSetTrap true true).or s.combineRangeTrap).or (overlapTrap s.recoverPairs)).or s.weightTrap

/-- The weights of the share set (R214). -/
def State.weights (s : State) : List Byte := lagrangeWeights s.xCoords

/-- The weights as LMEM holds them at W_ADDR (R218). -/
def State.storedWeights (s : State) : List Byte := s.readBytes s.wAddr.toNat s.count.toNat

/-- The recovered bytes from these weights (R216). -/
def State.recovered (s : State) (ws : List Byte) : List Byte :=
  (List.range s.shareLen.toNat).map fun j =>
    combine (s.shareSet.map fun d => s.readByte (d.ptr.toNat + j)) ws

/-- Write bytes at SEC_ADDR and the share length to SEC_LEN (R216). -/
def State.writeRecovered (s : State) (out : List Byte) (len : BitVec 16) : State :=
  { s.writeBytes s.secAddr.toNat out with secLen := len.setWidth 32 }

/-- LWGT (R217). -/
def execLwgt (s : State) : Outcome State Fault Refusal :=
  match s.lwgtTrap with
  | some t => .next (s.takeFault t)
  | none => .next (s.writeBytes s.wAddr.toNat s.weights).advance

/-- LCOMB (R218). -/
def execLcomb (s : State) : Outcome State Fault Refusal :=
  match s.lcombTrap with
  | some t => .next (s.takeFault t)
  | none => .next (s.writeRecovered (s.recovered s.storedWeights) s.shareLen).advance

/-- RECOVER (R219). Every input byte is read before the first write; the regions do not overlap (R215; log 15). -/
def execRecover (s : State) : Outcome State Fault Refusal :=
  match s.recoverTrap with
  | some t => .next (s.takeFault t)
  | none =>
    .next ((s.writeBytes s.wAddr.toNat s.weights).writeRecovered (s.recovered s.weights) s.shareLen).advance

end Sys2Proof.Machine
end

