-- ==== Sys2Proof/Machine/Sequencer.lean ====
section
/-! DEFINITION. The sequencer commands NOP, HALT, CSRWI, CSRR, GLDI, LDB and STB (R131 to R137). -/

namespace Sys2Proof.Machine

open Host (Outcome)

/-- NOP (R131). -/
def execNop (s : State) : Outcome State Fault Refusal := .next s.advance

/-- HALT (R132): BUSY 0, DONE 1, PC kept. -/
def execHalt (s : State) : Outcome State Fault Refusal := .next { s with busy := false, done := true }

/-- CSRWI (R133). An index that no word encodes makes the word an illegal command (R27, R113; log 8). -/
def execCsrwi (csr : CsrIx) (imm20 : BitVec 20) (s : State) : Outcome State Fault Refusal :=
  if csrwIndexOk csr then .next (s.setParam csr.val (immCsr imm20)).advance
  else .next (s.takeFault ⟨.illegalCommand, encodeWord (.csrwi csr imm20)⟩)

/-- CSRR (R134): bits 7:0 of what the host would read now. An index that no word encodes makes the word an illegal
command (R27, R113; log 8). -/
def execCsrr (rd : Reg) (csr : CsrIx) (s : State) : Outcome State Fault Refusal :=
  if csrrIndexOk csr then .next (s.setElem rd ((s.csrRead csr.val).setWidth 8)).advance
  else .next (s.takeFault ⟨.illegalCommand, encodeWord (.csrr rd csr)⟩)

/-- GLDI (R135). -/
def execGldi (rd : Reg) (imm8 : BitVec 8) (s : State) : Outcome State Fault Refusal :=
  .next (s.setElem rd (immElement imm8)).advance

/-- LDB (R136). -/
def execLdb (rd : Reg) (addr22 : BitVec 22) (s : State) : Outcome State Fault Refusal :=
  if s.inRange (absAddr addr22) 1 then .next (s.setElem rd (s.readByte (absAddr addr22))).advance
  else .next (s.takeFault ⟨.addressRange, BitVec.ofNat 32 (absAddr addr22)⟩)

/-- STB (R137). -/
def execStb (rs : Reg) (addr22 : BitVec 22) (s : State) : Outcome State Fault Refusal :=
  if s.inRange (absAddr addr22) 1 then .next (s.writeBytes (absAddr addr22) [s.elem rs]).advance
  else .next (s.takeFault ⟨.addressRange, BitVec.ofNat 32 (absAddr addr22)⟩)

end Sys2Proof.Machine
end

