-- ==== Sys2Proof/Machine/ShareGeneration.lean ====
section
/-! DEFINITION. Share generation: the common parts of EVAL and SPLIT (R181 to R189), and the two commands (R190, R191). -/

namespace Sys2Proof.Machine

open Host (Outcome)

/-- The CSRs an EVAL or SPLIT reads at its start (R181). -/
def State.genJob (s : State) : GenJob where
  secAddr := s.secAddr
  secLen := s.secLen
  needed := s.needed
  total := s.total
  coefAddr := s.coefAddr
  outAddr := s.outAddr
  descAddr := s.descAddr

/-- K, the number of coefficient bytes (R183). -/
def GenJob.coefBytes (j : GenJob) : Nat := j.secLen.toNat * (j.needed.toNat - 1)

/-- Region S, the secret (R183). -/
def GenJob.secretRegion (j : GenJob) : Region := ⟨j.secAddr.toNat, j.secLen.toNat⟩

/-- Region C, the coefficients (R183). -/
def GenJob.coefRegion (j : GenJob) : Region := ⟨j.coefAddr.toNat, j.coefBytes⟩

/-- Region O, the share bytes (R183). -/
def GenJob.outRegion (j : GenJob) : Region := ⟨j.outAddr.toNat, j.total.toNat * j.secLen.toNat⟩

/-- Region D, the descriptors (R183). -/
def GenJob.descRegion (j : GenJob) : Region := ⟨j.descAddr.toNat, 8 * j.total.toNat⟩

/-- Parameter validation, in R182's order. -/
def GenJob.paramTrap (j : GenJob) : Option Trap :=
  if j.secLen.toNat = 0 ∨ 255 < j.secLen.toNat then some ⟨.invalidSecret, j.secLen⟩
  else if j.needed.toNat < 2 ∨ j.total.toNat < j.needed.toNat then some ⟨.invalidThreshold, j.needed⟩
  else if 255 < j.total.toNat then some ⟨.invalidShareCount, j.total⟩
  else none

/-- Range checks of S, C, O, D in order (R184). -/
def GenJob.rangeTrap (j : GenJob) (size : Nat) : Option Trap :=
  Machine.rangeTrap size [j.secretRegion, j.coefRegion, j.outRegion, j.descRegion]

/-- EVAL's overlap pairs (R185). -/
def GenJob.evalPairs (j : GenJob) : List (Region × Region) :=
  [(j.outRegion, j.secretRegion), (j.outRegion, j.coefRegion), (j.descRegion, j.secretRegion),
    (j.descRegion, j.coefRegion), (j.outRegion, j.descRegion)]

/-- SPLIT's overlap pairs (R185): EVAL's and (C, S). -/
def GenJob.splitPairs (j : GenJob) : List (Region × Region) := j.evalPairs ++ [(j.coefRegion, j.secretRegion)]

/-- EVAL's checks in R190's order: the first that fails. -/
def GenJob.evalTrap (j : GenJob) (size : Nat) : Option Trap :=
  (j.paramTrap.or (j.rangeTrap size)).or (overlapTrap j.evalPairs)

/-- SPLIT's checks in R191's order, before its RNG request: the first that fails. -/
def GenJob.splitTrap (j : GenJob) (size : Nat) : Option Trap :=
  (j.paramTrap.or (j.rangeTrap size)).or (overlapTrap j.splitPairs)

/-- The coefficients of byte position `pos`, highest degree first, and last the secret byte a_0 (R186). -/
def State.coefficients (s : State) (j : GenJob) (pos : Nat) : List Byte :=
  s.readBytes (j.coefAddr.toNat + pos * (j.needed.toNat - 1)) (j.needed.toNat - 1) ++
    [s.readByte (j.secAddr.toNat + pos)]

/-- The share byte y[x][pos] (R187). -/
def State.shareByte (s : State) (j : GenJob) (x pos : Nat) : Byte :=
  horner (BitVec.ofNat 8 x) (s.coefficients j pos)

/-- All share bytes in address order: share x = i + 1 is its L bytes (R189). -/
def State.shareBytes (s : State) (j : GenJob) : List Byte :=
  (List.range j.total.toNat).flatMap fun i =>
    (List.range j.secLen.toNat).map fun pos => s.shareByte j (i + 1) pos

/-- Descriptor i of a generation: x = i + 1, len = L, ptr = OUT_ADDR + i*L (R189, R211). -/
def GenJob.descriptor (j : GenJob) (i : Nat) : List Byte :=
  (bytesOfWord (BitVec.ofNat 32 (i + 1))).take 2 ++ (bytesOfWord j.secLen).take 2 ++
    bytesOfWord (BitVec.ofNat 32 (j.outAddr.toNat + i * j.secLen.toNat))

/-- The descriptor table a generation writes, as bytes (R189). -/
def GenJob.descBytes (j : GenJob) : List Byte := (List.range j.total.toNat).flatMap j.descriptor

/-- Evaluate with S and C as they stand, and write the outputs (R187, R189). -/
def State.generate (s : State) (j : GenJob) : State :=
  { (s.writeBytes j.outAddr.toNat (s.shareBytes j)).writeBytes j.descAddr.toNat j.descBytes with
    count := j.total }

/-- EVAL (R190). -/
def execEval (s : State) : Outcome State Fault Refusal :=
  match s.genJob.evalTrap s.params.lmemBytes with
  | some t => .next (s.takeFault t)
  | none => .next (s.generate s.genJob).advance

/-- What the RNG sends next: the script's head, or past its end a free value (R188; log 3). -/
def State.rngAnswer (s : State) : Config.RngAnswer :=
  match s.rngScript with
  | a :: _ => a
  | [] => Config.rngDraw s.draws

/-- The RNG's answer has been taken off its port (log 3). -/
def State.consumeAnswer (s : State) : State := { s with rngScript := s.rngScript.tail, draws := s.draws + 1 }

/-- SPLIT's first step: the checks, then the request `fill(K)`. RNGWAIT is 1 and the command stays in flight (R188, R191). -/
def State.splitRequest (s : State) : State :=
  match s.genJob.splitTrap s.params.lmemBytes with
  | some t => s.takeFault t
  | none => { s with inflight := some s.genJob }

/-- SPLIT's step at the RNG (R188, R191): K bytes go to C and the evaluation follows; `Unavailable` is the fault; what
has another length is no answer, and the wait goes on (log 3). -/
def State.splitAnswer (s : State) (j : GenJob) : State :=
  match s.rngAnswer with
  | .unavailable => s.consumeAnswer.takeFault ⟨.randomUnavailable, BitVec.ofNat 32 j.coefBytes⟩
  | .bytes r =>
    if r.length = j.coefBytes then
      ({ s.consumeAnswer.writeBytes j.coefAddr.toNat r with inflight := none }.generate j).advance
    else s.consumeAnswer

/-- SPLIT (R191): a request step and a completion step at the RNG's answer (R24; log 7). -/
def execSplit (s : State) : Outcome State Fault Refusal :=
  match s.inflight with
  | none => .next s.splitRequest
  | some j => .next (s.splitAnswer j)

end Sys2Proof.Machine
end

