-- ==== Sys2Proof/Machine/Dispatch.lean ====
section
/-! DEFINITION. The meaning of each command, one arm per row of spec/opcode_table.json. -/

namespace Sys2Proof.Machine

def exec (i : Instr) (s : State) : Host.Outcome State Fault Refusal :=
  match i with
  | .nop => Sys2Proof.Machine.execNop s
  | .halt => Sys2Proof.Machine.execHalt s
  | .csrwi csr imm20 => Sys2Proof.Machine.execCsrwi csr imm20 s
  | .csrr rd csr => Sys2Proof.Machine.execCsrr rd csr s
  | .gldi rd imm8 => Sys2Proof.Machine.execGldi rd imm8 s
  | .ldb rd addr22 => Sys2Proof.Machine.execLdb rd addr22 s
  | .stb rs addr22 => Sys2Proof.Machine.execStb rs addr22 s
  | .gxor rd rs1 rs2 => Sys2Proof.Machine.execGxor rd rs1 rs2 s
  | .gmul rd rs1 rs2 => Sys2Proof.Machine.execGmul rd rs1 rs2 s
  | .gdiv rd rs1 rs2 => Sys2Proof.Machine.execGdiv rd rs1 rs2 s
  | .gexp rd rs1 => Sys2Proof.Machine.execGexp rd rs1 s
  | .glog rd rs1 => Sys2Proof.Machine.execGlog rd rs1 s
  | .hstep rd rs1 rs2 => Sys2Proof.Machine.execHstep rd rs1 rs2 s
  | .eval => Sys2Proof.Machine.execEval s
  | .split => Sys2Proof.Machine.execSplit s
  | .lwgt => Sys2Proof.Machine.execLwgt s
  | .lcomb => Sys2Proof.Machine.execLcomb s
  | .recover => Sys2Proof.Machine.execRecover s

end Sys2Proof.Machine
end

