-- ==== Sys2Proof/Machine/HostPort.lean ====
section
/-! DEFINITION. Fetching a command (R130), the host window (R77 to R80), START and SRST (R31, R262, R263), the abort of
a command in flight (R299), and the input `rst_n` (R290). -/

namespace Sys2Proof.Machine

open Host (Outcome)

/-- The fetch and decoding of a step (R130, R112): the command at PC, or the fault. -/
def State.fetch (s : State) : Except Trap Instr :=
  if s.inRange s.pc.toNat 4 then
    match decodeWord (s.read32 s.pc.toNat) with
    | .ok i => .ok i
    | .error _ => .error ⟨.illegalCommand, s.read32 s.pc.toNat⟩
  else .error ⟨.fetchRange, s.pc⟩

/-- The output regions of a generation that draws its coefficients (R183, R299). -/
def GenJob.splitOutputs (j : GenJob) : List Region := [j.coefRegion, j.outRegion, j.descRegion]

/-- The length LCOMB and RECOVER take their SEC region to have, 0 where there is no record 0 to read (R212; log 6). -/
def State.outputLen (s : State) : Nat :=
  if 0 < s.count.toNat ∧ s.inRange s.descAddr.toNat 4 = true then s.shareLen.toNat else 0

/-- The output regions of a command (R299); a command that is no macro command has none. -/
def State.outputRegions (s : State) : Instr → List Region
  | .eval => [s.genJob.outRegion, s.genJob.descRegion]
  | .split => s.genJob.splitOutputs
  | .lwgt => [s.weightRegion]
  | .lcomb => [⟨s.secAddr.toNat, s.outputLen⟩]
  | .recover => [s.weightRegion, ⟨s.secAddr.toNat, s.outputLen⟩]
  | .nop => []
  | .halt => []
  | .csrwi _ _ => []
  | .csrr _ _ => []
  | .gldi _ _ => []
  | .ldb _ _ => []
  | .stb _ _ => []
  | .gxor _ _ _ => []
  | .gmul _ _ _ => []
  | .gdiv _ _ _ => []
  | .gexp _ _ => []
  | .glog _ _ => []
  | .hstep _ _ _ => []

/-- Every byte of the region that lies in LMEM gets a free value (R299, I3; log 6). -/
def State.drawRegion (s : State) (r : Region) : State :=
  s.writeBytes r.base ((List.range (min r.len (s.params.lmemBytes - r.base))).map fun i =>
    Config.abortDraw s.draws (r.base + i))

/-- SRST that aborts a command with these output regions (R263, R299). -/
def State.srstAborting (s : State) (outputs : List Region) : State :=
  { outputs.foldl State.drawRegion s with draws := s.draws + 1 }.resetRegisters

/-- SRST between two engine steps (R263): the only command it can find in flight is a SPLIT that waits on the RNG. -/
def State.srst (s : State) : State :=
  match s.inflight with
  | some j => s.srstAborting j.splitOutputs
  | none => s.srstAborting []

/-- SRST while the next command is in flight (R299). Where there is no macro command to abort it is SRST. -/
def State.srstInFlight (s : State) : State :=
  match s.inflight, s.busy, s.fetch with
  | none, true, .ok i => s.srstAborting (s.outputRegions i)
  | _, _, _ => s.srst

/-- A host write of CTRL (R31): SRST wins over START. -/
def State.writeCtrl (s : State) (v : Word) : State :=
  if v.getLsbD 1 then s.srst else if v.getLsbD 0 then s.start else s

/-- A host write of CSR index n (R25 to R47); none is the ERROR of R28. Writes of read-only and reserved indices are ignored. -/
def State.csrWrite (s : State) (n : Nat) (v : Word) : Option State :=
  if n = 1 then some (s.writeCtrl v)
  else if n = 2 then some (s.writeStatus v)
  else if n = 3 then some (s.writeIrqen v)
  else if n = 4 then (if s.busy then none else some { s with entry := v })
  else if 8 ≤ n ∧ n ≤ 16 then (if s.busy then none else some (s.setParam n v))
  else some s

/-- The number of bytes of a host access (R78). -/
def HostWidth.bytes : HostWidth → Nat
  | .one => 1
  | .two => 2
  | .four => 4

/-- ERROR, with data 0 (R78). -/
def errorResp : HostResp := ⟨false, 0⟩

/-- The condition for a host access to LMEM (R79). -/
def State.hostLmemOk (s : State) (a : Nat) (w : HostWidth) : Bool :=
  a % w.bytes == 0 && s.inRange a w.bytes && !s.busy

/-- The condition for a host access to the register window (R80). -/
def hostCsrOk (off : Nat) (w : HostWidth) : Bool := w == .four && off % 4 == 0

/-- MemRead(a, w), zero-extended to the response's data (R10, R79). -/
def State.hostLmemData (s : State) (a : Nat) : HostWidth → Word
  | .one => (s.readByte a).setWidth 32
  | .two => (s.read16 a).setWidth 32
  | .four => s.read32 a

/-- A host read at an offset of the window (R77 to R80). -/
def State.hostRead (s : State) (off : Nat) (w : HostWidth) : HostResp :=
  if off < 0x100 then
    if hostCsrOk off w then ⟨true, s.csrRead (off / 4)⟩ else errorResp
  else if 0x400000 ≤ off then
    if s.hostLmemOk (off - 0x400000) w then ⟨true, s.hostLmemData (off - 0x400000) w⟩ else errorResp
  else errorResp

/-- A host write at an offset of the window (R77 to R80): the state after it, none for ERROR. -/
def State.hostWrite (s : State) (off : Nat) (w : HostWidth) (data : Word) : Option State :=
  if off < 0x100 then
    if hostCsrOk off w then s.csrWrite (off / 4) data else none
  else if 0x400000 ≤ off then
    if s.hostLmemOk (off - 0x400000) w then some (s.memWrite (off - 0x400000) w.bytes data) else none
  else none

/-- The offset of a system address in the engine's 8 MiB window, if it lies there (R77). -/
def State.windowOffset (s : State) (addr : Nat) : Option Nat :=
  if s.params.blockBase ≤ addr ∧ addr < s.params.blockBase + 0x800000 then some (addr - s.params.blockBase) else none

/-- The response of a host access goes to the host (R78; log 12). -/
def State.respond (s : State) (r : HostResp) : State := { s with hostResp := some r }

/-- The schedule from now on (log 2). -/
def State.setSchedule (s : State) (events : List Event) : State := { s with schedule := events }

/-- A host access (R78). An ERROR changes no state but the response. An access outside the window is not the
engine's: nothing changes and there is no response (log 11). -/
def State.hostAccess (s : State) : HostOp → State
  | .read addr w =>
    match s.windowOffset addr with
    | some off => s.respond (s.hostRead off w)
    | none => s
  | .write addr w data =>
    match s.windowOffset addr with
    | some off =>
      match s.hostWrite off w data with
      | some s' => s'.respond ⟨true, 0⟩
      | none => s.respond errorResp
    | none => s

/-- `rst_n` goes low (R290, R291): every register at its reset value, LMEM redrawn (R89), no response. -/
def State.rstAssert (s : State) : State :=
  { s.resetRegisters with mem := [], epoch := s.epoch + 1, rstLow := true, hostResp := none }

/-- `rst_n` goes high (R290). -/
def State.rstRelease (s : State) : State := { s with rstLow := false }

/-- An event that is a host access: refused while `rst_n` is low (R290, I12; log 10). -/
def State.hostEvent (s : State) (after : State) : Outcome State Fault Refusal :=
  if s.rstLow then .refused .hostAccessInReset else .next after

end Sys2Proof.Machine
end

