-- ==== Sys2Proof/Machine/Turn.lean ====
section
/-! DEFINITION. The engine's turn and the other events of the schedule (R20, R130; log 2). -/

namespace Sys2Proof.Machine

open Host (Outcome)

/-- The engine's turn. It moves exactly when BUSY = 1 (R130, R273). A SPLIT in flight goes on at the RNG (R188);
otherwise the command at PC is fetched and executed, or its fetch faults (R130). -/
def engineTurn (s : State) : Outcome State Fault Refusal :=
  if s.rstLow = true ∨ s.busy = false then .next s
  else if s.inflight.isSome then exec .split s
  else
    match s.fetch with
    | .ok i => exec i s
    | .error t => .next (s.takeFault t)

/-- What an event does, once it is off the schedule (R20, R254; log 2). -/
def handleEvent (ev : Event) (s : State) : Outcome State Fault Refusal :=
  match ev with
  | .engine => engineTurn s
  | .host op => s.hostEvent (s.hostAccess op)
  | .srstInFlight => s.hostEvent (s.srstInFlight.respond ⟨true, 0⟩)
  | .rstLow => .next s.rstAssert
  | .rstHigh => .next s.rstRelease

end Sys2Proof.Machine
end

