-- ==== Sys2Proof/Machine/Step.lean ====
section
/-! DEFINITION. One step: the next event of the schedule, or the engine's turn (R20, R130; log 2). -/

namespace Sys2Proof.Machine

open Host (Outcome)

/-- One step of the machine: an empty schedule gives the turn to the engine. -/
def step (s : State) : Outcome State Fault Refusal :=
  match s.schedule with
  | [] => engineTurn s
  | ev :: rest => handleEvent ev (s.setSchedule rest)

/-- The state in which the next step fetches and runs the command whose bits are `w`: the four bytes stand in LMEM at
PC, and the engine runs with nothing else pending (log 5). A PC outside LMEM is set to 0 first. -/
def State.withFetchWord (s : State) (nbits w : Nat) : State :=
  let pc : Word := if s.inRange s.pc.toNat 4 then s.pc else 0
  { s.writeBytes pc.toNat (bytesOfWord (BitVec.ofNat 32 (w % 2 ^ nbits))) with
    pc := pc
    busy := true
    inflight := none
    rstLow := false
    schedule := [] }

end Sys2Proof.Machine
end

