-- ==== Sys2Proof/Safety.lean ====
section
/-! DEFINITION. The terms the statements use: what a state keeps, how a command completes or faults, the invariant of
the machine, and the reference forms of the field operations. -/

namespace Sys2Proof.Machine

open Host (Outcome)

/-- The next state of an outcome, if it is one. -/
def nextState? : Outcome State Fault Refusal → Option State
  | .next s => some s
  | .fault _ => none
  | .refused _ => none

/-- Every byte of LMEM reads as before. -/
def SameMemory (s t : State) : Prop := ∀ a, t.readByte a = s.readByte a

/-- Every byte of LMEM outside the regions reads as before. -/
def SameMemoryOutside (regions : List Region) (s t : State) : Prop :=
  ∀ a, (∀ r ∈ regions, r.has a = false) → t.readByte a = s.readByte a

/-- Every element register is unchanged. -/
def SameElements (s t : State) : Prop := ∀ r, t.elem r = s.elem r

/-- The parameter CSRs but SEC_LEN and COUNT are unchanged (the ones no macro command writes, R27). -/
def SameInputCsrs (s t : State) : Prop :=
  t.secAddr = s.secAddr ∧ t.needed = s.needed ∧ t.total = s.total ∧ t.coefAddr = s.coefAddr ∧
    t.outAddr = s.outAddr ∧ t.descAddr = s.descAddr ∧ t.wAddr = s.wAddr

/-- Every parameter CSR is unchanged. -/
def SameParams (s t : State) : Prop := SameInputCsrs s t ∧ t.secLen = s.secLen ∧ t.count = s.count

/-- STATUS is unchanged. -/
def SameStatus (s t : State) : Prop :=
  t.busy = s.busy ∧ t.done = s.done ∧ t.err = s.err ∧ t.errCode = s.errCode ∧ t.inflight = s.inflight

/-- The other control CSRs are unchanged: IRQEN, ENTRY, ERRPC and ERRINFO. -/
def SameControl (s t : State) : Prop :=
  t.doneIe = s.doneIe ∧ t.errIe = s.errIe ∧ t.entry = s.entry ∧ t.errPc = s.errPc ∧ t.errInfo = s.errInfo

/-- The model's own fields of the RNG are unchanged. -/
def SameRng (s t : State) : Prop := t.draws = s.draws ∧ t.rngScript = s.rngScript

/-- What no command changes: the parameters, `rst_n`, the LMEM draw, the schedule and the host's response. -/
def SameSurroundings (s t : State) : Prop :=
  t.params = s.params ∧ t.rstLow = s.rstLow ∧ t.epoch = s.epoch ∧ t.schedule = s.schedule ∧ t.hostResp = s.hostResp

/-- PC is advanced by 4; STATUS, the other control CSRs, the RNG's and the surroundings' fields are unchanged. -/
def Completed (s t : State) : Prop :=
  t.pc = s.pc + 4 ∧ SameStatus s t ∧ SameControl s t ∧ SameRng s t ∧ SameSurroundings s t

/-- The command completed, and all it wrote is `v` in element register `rd`. -/
def OnlyElement (rd : Reg) (v : Byte) (s t : State) : Prop :=
  Completed s t ∧ t.elem rd = v ∧ (∀ r, r ≠ rd → t.elem r = s.elem r) ∧ SameParams s t ∧ SameMemory s t

/-- What R255 says of a fault taken in `s`: `t` is stopped, the cause, PC and info are recorded, all else is kept. -/
def Faulted (code : FaultCode) (info : Word) (s t : State) : Prop :=
  t.busy = false ∧ t.inflight = none ∧ t.err = true ∧ t.errCode = faultNumber code ∧ t.errPc = s.pc ∧
    t.errInfo = info ∧ t.pc = s.pc ∧ t.done = s.done ∧ t.doneIe = s.doneIe ∧ t.errIe = s.errIe ∧
    t.entry = s.entry ∧ SameElements s t ∧ SameParams s t ∧ SameMemory s t ∧ SameRng s t ∧ SameSurroundings s t

/-- The next step is the engine's, and it is about to fetch (R130). -/
def EngineReady (s : State) : Prop :=
  s.schedule = [] ∧ s.rstLow = false ∧ s.busy = true ∧ s.inflight = none

/-- Every register as R291 says it is after a reset. -/
def RegistersReset (t : State) : Prop :=
  (∀ r, t.elem r = 0) ∧ t.pc = 0 ∧ t.busy = false ∧ t.inflight = none ∧ t.statusWord = 0 ∧ t.irq = false ∧
    t.csrRead 0 = 0x47463031 ∧ t.csrRead 17 = BitVec.ofNat 32 t.params.lmemBytes ∧
    ∀ n, n ≠ 0 → n ≠ 17 → t.csrRead n = 0

/-- What an SRST leaves of `s` when it aborts a command with these output regions (R263, R299; log 6): every register at
its reset value, a draw in each byte of the regions that lies in LMEM, and every other byte as before. The surroundings and the RNG's script
are kept (logs 2, 4 and 16). -/
def Aborted (outputs : List Region) (s t : State) : Prop :=
  RegistersReset t ∧ SameSurroundings s t ∧ t.rngScript = s.rngScript ∧ ∀ a, t.readByte a =
    if a < s.params.lmemBytes ∧ outputs.any (fun r => r.has a) = true then Config.abortDraw s.draws a else s.readByte a

/-- How many commands the first `k` steps from `s` begin: a step counts when the engine runs with nothing in flight, so
that a SPLIT counts once, at its request, however long it waits (R24, R130). -/
def commandsBegun : Nat → State → Nat
  | 0, _ => 0
  | k + 1, s =>
    match step s with
    | .next t => (if s.busy = true ∧ s.inflight = none then 1 else 0) + commandsBegun k t
    | .fault _ => 0
    | .refused _ => 0

/-- The word of `i` is in the row of R111 with this match and mask, and decodes to `i`. -/
def InRow (i : Instr) (matchBits mask : Word) : Prop :=
  encodeWord i &&& mask = matchBits ∧ decodeWord (encodeWord i) = .ok i

/-- A generation's parameters and regions pass every check of R182, R184 and R185, in a memory of `size` bytes. -/
abbrev GenJob.Accepted (j : GenJob) (size : Nat) (split : Bool) : Prop :=
  let L := j.secLen.toNat
  let n := j.needed.toNat
  let T := j.total.toNat
  let S : Region := ⟨j.secAddr.toNat, L⟩
  let C : Region := ⟨j.coefAddr.toNat, L * (n - 1)⟩
  let O : Region := ⟨j.outAddr.toNat, T * L⟩
  let D : Region := ⟨j.descAddr.toNat, 8 * T⟩
  (1 ≤ L ∧ L ≤ 255) ∧ (2 ≤ n ∧ n ≤ T) ∧ T ≤ 255 ∧
    S.base + S.len ≤ size ∧ C.base + C.len ≤ size ∧ O.base + O.len ≤ size ∧ D.base + D.len ≤ size ∧
    overlap O S = false ∧ overlap O C = false ∧ overlap D S = false ∧ overlap D C = false ∧ overlap O D = false ∧
    (split = true → overlap C S = false)

/-- The share set passes R212: at least two records, the table in LMEM, and for each record the X checks, the L checks,
or both. -/
abbrev State.ShareSetAccepted (s : State) (xChecks lChecks : Bool) : Prop :=
  2 ≤ s.count.toNat ∧ s.descAddr.toNat + 8 * s.count.toNat ≤ s.params.lmemBytes ∧
    ∀ i, i < s.count.toNat →
      (xChecks = true →
        (1 ≤ (s.read16 (s.descAddr.toNat + 8 * i)).toNat ∧ (s.read16 (s.descAddr.toNat + 8 * i)).toNat ≤ 255) ∧
          ∀ k, k < i → s.read16 (s.descAddr.toNat + 8 * k) ≠ s.read16 (s.descAddr.toNat + 8 * i)) ∧
      (lChecks = true → (s.read16 (s.descAddr.toNat + 8 * i + 2)).toNat ≠ 0 ∧
        s.read16 (s.descAddr.toNat + 8 * i + 2) = s.read16 (s.descAddr.toNat + 2))

/-- LWGT's checks pass (R217). -/
abbrev State.LwgtAccepted (s : State) : Prop :=
  let W : Region := ⟨s.wAddr.toNat, s.count.toNat⟩
  s.ShareSetAccepted true false ∧ W.base + W.len ≤ s.params.lmemBytes ∧
    overlap W ⟨s.descAddr.toNat, 8 * s.count.toNat⟩ = false

/-- The checks of LCOMB (R218), or with `recover` those of RECOVER (R219), pass. -/
abbrev State.CombineAccepted (s : State) (recover : Bool) : Prop :=
  let N := s.count.toNat
  let L := (s.read16 (s.descAddr.toNat + 2)).toNat
  let Dt : Region := ⟨s.descAddr.toNat, 8 * N⟩
  let W : Region := ⟨s.wAddr.toNat, N⟩
  let Y := fun i => (⟨(s.read32 (s.descAddr.toNat + 8 * i + 4)).toNat, L⟩ : Region)
  let SEC : Region := ⟨s.secAddr.toNat, L⟩
  s.ShareSetAccepted recover true ∧ W.base + W.len ≤ s.params.lmemBytes ∧
    (∀ i, i < N → (Y i).base + (Y i).len ≤ s.params.lmemBytes) ∧ SEC.base + SEC.len ≤ s.params.lmemBytes ∧
    overlap SEC Dt = false ∧ overlap SEC W = false ∧ (∀ i, i < N → overlap SEC (Y i) = false) ∧
    (recover = true → overlap W Dt = false ∧ ∀ i, i < N → overlap W (Y i) = false)

/-- The share table of `u` is made of these records, by number and in this order, of the table that the generation `j`
left in `t`; the bytes of each of these shares stand in `u` as in `t` (R192). -/
structure SharesTaken (j : GenJob) (picks : List Nat) (t u : State) : Prop where
  count : u.count.toNat = picks.length
  inTable : ∀ k ∈ picks, k < j.total.toNat
  records : ∀ i k, picks[i]? = some k →
    u.read16 (u.descAddr.toNat + 8 * i) = t.read16 (j.descAddr.toNat + 8 * k) ∧
    u.read16 (u.descAddr.toNat + 8 * i + 2) = t.read16 (j.descAddr.toNat + 8 * k + 2) ∧
    u.read32 (u.descAddr.toNat + 8 * i + 4) = t.read32 (j.descAddr.toNat + 8 * k + 4)
  bytes : ∀ k ∈ picks, ∀ pos, pos < j.secLen.toNat →
    u.readByte (j.outAddr.toNat + k * j.secLen.toNat + pos) = t.readByte (j.outAddr.toNat + k * j.secLen.toNat + pos)

/-- RECOVER on any `needed` or more of the records that the generation `j` left in `t`, arranged as a table in any state
whose regions it accepts, writes the secret that `s` held (R192). -/
def RecoversSecret (j : GenJob) (s t : State) : Prop :=
  ∀ (picks : List Nat) (u : State), j.needed.toNat ≤ picks.length → SharesTaken j picks t u → u.CombineAccepted true →
    ∃ v, exec .recover u = .next v ∧ v.secLen = j.secLen ∧
      ∀ pos, pos < j.secLen.toNat → v.readByte (u.secAddr.toNat + pos) = s.readByte (j.secAddr.toNat + pos)

/-- The invariant of the machine. -/
structure State.Inv (s : State) : Prop where
  /-- LMEM is in canonical form (log 14). -/
  memCanonical : s.mem.wf
  /-- Only addresses of LMEM are listed (R70, R72). -/
  memInRange : ∀ c ∈ s.mem, c.1 < s.params.lmemBytes
  /-- PC is a multiple of 4 while the engine runs (R23). -/
  pcAligned : s.busy = true → s.pc.toNat % 4 = 0
  /-- BUSY = 1 implies DONE = 0 and ERR = 0 (R32). -/
  busyClean : s.busy = true → s.done = false ∧ s.err = false
  /-- DONE and ERR are never both 1 (R32). -/
  notBoth : ¬(s.done = true ∧ s.err = true)
  /-- RNGWAIT = 1 implies BUSY = 1 (R32). -/
  waitBusy : s.inflight.isSome = true → s.busy = true
  /-- ERRCODE is not 0 exactly when ERR = 1 (R32). -/
  codeIffErr : s.errCode ≠ 0 ↔ s.err = true
  /-- ERRCODE is a code that is raised (R252, R265, I19, I20). -/
  codeRaised : s.err = true → ∃ c, c ≠ FaultCode.invalidShareValue ∧ s.errCode = faultNumber c
  /-- A SPLIT in flight read the CSRs as they still stand (R28, R181). -/
  jobCurrent : ∀ j, s.inflight = some j → j = s.genJob
  /-- A SPLIT in flight has passed its checks (R188). -/
  jobChecked : ∀ j, s.inflight = some j → j.splitTrap s.params.lmemBytes = none
  /-- A SPLIT in flight was fetched from LMEM (R130). -/
  jobFetched : s.inflight.isSome = true → s.inRange s.pc.toNat 4 = true
  /-- While `rst_n` is low the engine is idle (R290, R291). -/
  resetIdle : s.rstLow = true → s.busy = false

/-- Multiplication by the generator 2 (R48): a 9-bit shift, reduced by 0x11D. -/
def timesGenerator (a : Byte) : Byte :=
  let t : BitVec 9 := a.setWidth 9 <<< 1
  (if t.getLsbD 8 then t ^^^ 0x11D else t).setWidth 8

/-- a multiplied by x^k in the polynomial basis (R2). -/
def timesPower (a : Byte) : Nat → Byte
  | 0 => a
  | k + 1 => timesGenerator (timesPower a k)

/-- Carry-less multiplication reduced modulo 0x11D (R2, R52). -/
def polyProduct (a b : Byte) : Byte :=
  (List.range 8).foldl (fun acc k => if b.getLsbD k then acc ^^^ timesPower a k else acc) 0

/-- The power of an element under gmul (R166). -/
def gpow (a : Byte) : Nat → Byte
  | 0 => 1
  | k + 1 => gmul (gpow a k) a

/-- The sum of c_k * x^(d + k) over the coefficients, lowest degree first (R187). -/
def polyValue (x : Byte) (d : Nat) : List Byte → Byte
  | [] => 0
  | c :: cs => gmul c (gpow x d) ^^^ polyValue x (d + 1) cs

end Sys2Proof.Machine
end

