-- ==== Sys2Proof/Certificates/Slice0/Obligations.lean ====
section
/-! DEFINITION. The statements about the machine, for the provers. Each docstring names the rules it formalises. -/

open Sys2Proof Sys2Proof.Machine

/-! ### Encoding -/

/-- For every command that has an encoding, decoding its word, or its four bytes before any others, gives it back
(R100 to R112). -/
def Obligations.EveryWellFormedCommandDecodesBack : Prop :=
  ∀ i : Instr, i.wellFormed = true →
    decodeWord (encodeWord i) = .ok i ∧ ∀ rest, decode (encode i ++ rest) = .ok (i, rest)

/-- Every word that decodes to a command is that command's word, so that no two words decode to one command (R112). -/
def Obligations.EveryDecodedWordIsItsEncoding : Prop :=
  ∀ (w : Word) (i : Instr), decodeWord w = .ok i → i.wellFormed = true ∧ encodeWord i = w

/-- R113: the illegal words are those of (a) to (e), and fetching one faults with IllegalCommand and the word, changing
nothing else. -/
def Obligations.IllegalWordsAreTheListedOnesAndFault : Prop :=
  (∀ w : Word, (∃ e, decodeWord w = .error e) ↔
    (w.extractLsb' 26 6).toNat = 0 ∨
    (w.extractLsb' 26 6).toNat = 0x0E ∨ (w.extractLsb' 26 6).toNat = 0x0F ∨ 0x15 ≤ (w.extractLsb' 26 6).toNat ∨
    ((w.extractLsb' 26 6).toNat ∈ [0x01, 0x02, 0x10, 0x11, 0x12, 0x13, 0x14] ∧ w.extractLsb' 0 26 ≠ 0) ∨
    ((w.extractLsb' 26 6).toNat = 0x04 ∧ w.extractLsb' 0 16 ≠ 0) ∨
    ((w.extractLsb' 26 6).toNat = 0x05 ∧ w.extractLsb' 8 14 ≠ 0) ∨
    ((w.extractLsb' 26 6).toNat ∈ [0x08, 0x09, 0x0A, 0x0D] ∧ w.extractLsb' 0 14 ≠ 0) ∨
    ((w.extractLsb' 26 6).toNat ∈ [0x0B, 0x0C] ∧ w.extractLsb' 0 18 ≠ 0) ∨
    ((w.extractLsb' 26 6).toNat = 0x03 ∧
      ((w.extractLsb' 20 6).toNat < 8 ∨ 16 < (w.extractLsb' 20 6).toNat)) ∨
    ((w.extractLsb' 26 6).toNat = 0x04 ∧ 17 < (w.extractLsb' 16 6).toNat)) ∧
  ∀ (s : State) (w : Word) (e : Illegal), EngineReady s → s.inRange s.pc.toNat 4 = true → s.read32 s.pc.toNat = w →
    decodeWord w = .error e → ∃ t, step s = .next t ∧ Faulted .illegalCommand w s t

/-- The worked encodings of R118: each word is its command's and decodes to it; the six illegal words are refused. -/
def Obligations.WorkedEncodingsDecode : Prop :=
  (∀ p ∈ ([(0x04000000, .nop), (0x08000000, .halt), (0x0C800200, .csrwi 8 0x200), (0x0D0FFFFF, .csrwi 16 0xFFFFF),
      (0x11420000, .csrr 5 2), (0x14400053, .gldi 1 0x53), (0x1A000100, .ldb 8 0x100), (0x1CFFFFFF, .stb 3 0x3FFFFF),
      (0x214D0000, .gxor 5 3 4), (0x24C48000, .gmul 3 1 2), (0x290C8000, .gdiv 4 3 2), (0x2D840000, .gexp 6 1),
      (0x31D80000, .glog 7 6), (0x34048000, .hstep 0 1 2), (0x40000000, .eval), (0x44000000, .split),
      (0x48000000, .lwgt), (0x4C000000, .lcomb), (0x50000000, .recover), (0x14800000, .gldi 2 0),
      (0x24444000, .gmul 1 1 1)] : List (Word × Instr)),
    encodeWord p.2 = p.1 ∧ decodeWord p.1 = .ok p.2) ∧
  ∀ w ∈ ([0x00000000, 0x04000001, 0x0C000000, 0x10120000, 0x24C48001, 0x38000000] : List Word),
    ∃ e, decodeWord w = .error e

/-! ### Field tables and field arithmetic -/

/-- R48: EXP starts at 1, each of its first 255 entries is the one before times the generator, and the rest repeat. -/
def Obligations.ExpTableFollowsTheGenerator : Prop :=
  expTable 0 = 1 ∧ (∀ i, i < 254 → expTable (i + 1) = timesGenerator (expTable i)) ∧
    ∀ i, 255 ≤ i → i ≤ 509 → expTable i = expTable (i - 255)

/-- R49: for a nonzero x, LOG[x] is the one index in 0 to 254 at which EXP is x; LOG[0] is 0. -/
def Obligations.LogTableInvertsExp : Prop :=
  (∀ x : Byte, x ≠ 0 → (logTable x).toNat ≤ 254 ∧ expTable (logTable x).toNat = x ∧
    ∀ i, i ≤ 254 → expTable i = x → i = (logTable x).toNat) ∧ logTable 0 = 0

/-- R52: the listed properties of the two tables, with the agreement of gmul with the polynomial product mod 0x11D. -/
def Obligations.FieldTablesHaveTheListedProperties : Prop :=
  (∀ x : Byte, x ≠ 0 → ∃ i, i ≤ 254 ∧ expTable i = x ∧ ∀ k, k ≤ 254 → expTable k = x → k = i) ∧
  expTable 255 = 1 ∧ (∀ i, i ≤ 509 → expTable i ≠ 0) ∧
  (∀ x : Byte, x ≠ 0 → expTable (logTable x).toNat = x) ∧
  (∀ i, i ≤ 254 → (logTable (expTable i)).toNat = i) ∧
  logTable 1 = 0 ∧ logTable 2 = 1 ∧ logTable 0x8E = 0xFE ∧ logTable 0xFF = 0xAF ∧
  ∀ a b : Byte, gmul a b = polyProduct a b

/-- R166: the laws of the field operations, with the agreement of product and quotient with the polynomial ones. -/
def Obligations.FieldOperationLaws : Prop :=
  (∀ a b : Byte, gmul a b = gmul b a) ∧
  (∀ a b c : Byte, gmul (gmul a b) c = gmul a (gmul b c)) ∧
  (∀ a b c : Byte, gmul a (gxor b c) = gxor (gmul a b) (gmul a c)) ∧
  (∀ a : Byte, gmul a 1 = a ∧ gmul a 0 = 0) ∧
  (∀ a b : Byte, b ≠ 0 → ∃ q, gdiv a b = some q ∧ gmul q b = a ∧ gdiv (gmul a b) b = some a ∧
    polyProduct q b = a) ∧
  (∀ a : Byte, a ≠ 0 → ∃ q, gdiv 1 a = some q ∧ gmul a q = 1) ∧
  (∀ a b : Byte, gmul a b = 0 ↔ a = 0 ∨ b = 0) ∧
  (∀ a : Byte, a ≠ 0 → gpow a 255 = 1) ∧
  (∀ a b : Byte, gmul a b = polyProduct a b) ∧
  ∀ a : Byte, gdiv a 0 = none

/-- R187: Horner evaluation, highest coefficient first, is the value of the polynomial, the sum of a_k times x^k. -/
def Obligations.HornerEvaluatesThePolynomial : Prop :=
  ∀ (x : Byte) (coefs : List Byte), horner x coefs.reverse = polyValue x 0 coefs

/-- R192, for one secret byte: for a polynomial of degree below n given by n coefficients (highest first, the secret
byte a_0 last), its values at n or more distinct nonzero points combine, with the Lagrange weights of the points
(R214, R216), to the secret byte. -/
def Obligations.EnoughSharesRecoverTheSecretByte : Prop :=
  ∀ (higher : List Byte) (a0 : Byte) (xs : List Byte), xs.Nodup → (0 : Byte) ∉ xs → higher.length + 1 ≤ xs.length →
    combine (xs.map fun x => horner x (higher ++ [a0])) (lagrangeWeights xs) = a0

/-! ### The step -/

/-- R130: when the four bytes at PC decode to a command, the engine's step is that command's meaning, at an empty
schedule or at the engine's turn; a SPLIT in flight goes on without a fetch (the model's form: logs 2 and 7). At the
engine's turn of a schedule a fetch that fails takes its fault, and an idle engine changes nothing (R273). Any other event
does to the state, once it is off the schedule, what its function says (R20, R83, R290; log 2). While `rst_n` is low the
engine rests, and a host access is refused (log 10). -/
def Obligations.StepRunsTheDecodedCommand : Prop :=
  (∀ (s : State) (i : Instr), EngineReady s → s.inRange s.pc.toNat 4 = true →
    decodeWord (s.read32 s.pc.toNat) = .ok i → step s = exec i s) ∧
  (∀ (s : State) (i : Instr) (rest : List Event), EngineReady s → s.inRange s.pc.toNat 4 = true →
    decodeWord (s.read32 s.pc.toNat) = .ok i →
    step (s.setSchedule (.engine :: rest)) = exec i (s.setSchedule rest)) ∧
  (∀ (s : State) (j : GenJob), s.schedule = [] → s.rstLow = false → s.busy = true → s.inflight = some j →
    step s = exec .split s) ∧
  (∀ (s : State) (j : GenJob) (rest : List Event), s.rstLow = false → s.busy = true → s.inflight = some j →
    step (s.setSchedule (.engine :: rest)) = exec .split (s.setSchedule rest)) ∧
  (∀ (s : State) (rest : List Event) (e : Illegal), EngineReady s → s.inRange s.pc.toNat 4 = true →
    decodeWord (s.read32 s.pc.toNat) = .error e →
    ∃ t, step (s.setSchedule (.engine :: rest)) = .next t ∧
      Faulted .illegalCommand (s.read32 s.pc.toNat) (s.setSchedule rest) t) ∧
  (∀ (s : State) (rest : List Event), EngineReady s → s.params.lmemBytes < s.pc.toNat + 4 →
    ∃ t, step (s.setSchedule (.engine :: rest)) = .next t ∧ Faulted .fetchRange s.pc (s.setSchedule rest) t) ∧
  (∀ (s : State) (rest : List Event), s.busy = false →
    step (s.setSchedule (.engine :: rest)) = .next (s.setSchedule rest)) ∧
  (∀ (s : State) (op : HostOp) (rest : List Event),
    step (s.setSchedule (.host op :: rest)) =
      if s.rstLow = true then .refused .hostAccessInReset else .next ((s.setSchedule rest).hostAccess op)) ∧
  (∀ (s : State) (rest : List Event),
    step (s.setSchedule (.srstInFlight :: rest)) =
      if s.rstLow = true then .refused .hostAccessInReset
      else .next { (s.setSchedule rest).srstInFlight with hostResp := some ⟨true, 0⟩ }) ∧
  (∀ (s : State) (rest : List Event),
    step (s.setSchedule (.rstLow :: rest)) = .next (s.setSchedule rest).rstAssert ∧
    step (s.setSchedule (.rstHigh :: rest)) = .next { s.setSchedule rest with rstLow := false }) ∧
  ∀ (s : State) (rest : List Event), s.rstLow = true →
    (s.schedule = [] → step s = .next s) ∧ step (s.setSchedule (.engine :: rest)) = .next (s.setSchedule rest)

/-- R130: a fetch outside LMEM faults with FetchRange and the PC. -/
def Obligations.FetchOutsideLmemFaults : Prop :=
  ∀ s : State, EngineReady s → s.params.lmemBytes < s.pc.toNat + 4 →
    ∃ t, step s = .next t ∧ Faulted .fetchRange s.pc s t

/-- R261, R273: an idle engine keeps all state, and only a host write of START to CTRL makes it run. -/
def Obligations.OnlyStartLeavesIdle : Prop :=
  (∀ s : State, s.busy = false → s.schedule = [] → step s = .next s) ∧
  ∀ s t : State, s.busy = false → step s = .next t → t.busy = true →
    ∃ data rest, s.schedule = .host (.write (s.params.blockBase + 4) .four data) :: rest ∧
      data.getLsbD 0 = true ∧ data.getLsbD 1 = false ∧ s.entry.toNat % 4 = 0 ∧ t.pc = s.entry

/-- The headline invariant: every step that answers a next state keeps `State.Inv`, from every state that has it. -/
def Obligations.EveryStepKeepsTheInvariant : Prop :=
  ∀ s t : State, s.Inv → step s = .next t → t.Inv

/-- The state right after reset has the invariant. -/
def Obligations.ResetHasTheInvariant : Prop := State.reset.Inv

/-- R47, R291: after `rst_n` and after SRST every register is at its reset value, and LMEMSZ is what it was. LMEM is redrawn
by `rst_n` (the draw of the next epoch, log 1) and left by an SRST that finds no command in flight. The model's own fields:
`rst_n` going low leaves its level low and discards the host's response (log 10), SRST keeps the surroundings, and both keep
the parameters, the schedule and the RNG's script (logs 2, 4 and 16). -/
def Obligations.BothResetsSetEveryRegister : Prop :=
  RegistersReset State.reset ∧
  (∀ s : State, RegistersReset s.rstAssert ∧ (∀ a, s.rstAssert.readByte a = Config.lmemDraw (s.epoch + 1) a) ∧
    s.rstAssert.rstLow = true ∧ s.rstAssert.params = s.params ∧ s.rstAssert.csrRead 17 = s.csrRead 17 ∧
    s.rstAssert.schedule = s.schedule ∧ s.rstAssert.rngScript = s.rngScript ∧ s.rstAssert.draws = s.draws ∧
    s.rstAssert.hostResp = none) ∧
  ∀ s : State, RegistersReset s.srst ∧ s.srst.csrRead 17 = s.csrRead 17 ∧ SameSurroundings s s.srst ∧
    s.srst.rngScript = s.rngScript ∧ (s.inflight = none → SameMemory s s.srst)

/-- Every command answers a next state in every state: no command ends the run (R250, R255; log 9). -/
def Obligations.EveryCommandAnswersANextState : Prop :=
  ∀ (i : Instr) (s : State), ∃ t, exec i s = .next t

/-- A step answers a next state, but for a host access while `rst_n` is low (the model's reading of R290 and I12: log 10). -/
def Obligations.OnlyHostAccessInResetIsRefused : Prop :=
  ∀ s : State, (∃ t, step s = .next t) ∨
    (step s = .refused .hostAccessInReset ∧ s.rstLow = true ∧
      ∃ ev rest, s.schedule = ev :: rest ∧ (ev = .srstInFlight ∨ ∃ op, ev = .host op))

/-- R255: what taking a fault records, and what it keeps; `irq` rises when ERR_IE is set. -/
def Obligations.TakingAFaultStopsAndRecords : Prop :=
  ∀ (s : State) (c : FaultCode) (info : Word),
    Faulted c info s (s.takeFault ⟨c, info⟩) ∧ (s.errIe = true → (s.takeFault ⟨c, info⟩).irq = true)

/-- R256: a command that sets ERR has no effect but the fault's: every fault is the entry of R255 from the state the
command started in; only SPLIT at the RNG's answer has also taken that answer (log 3). No command raises
InvalidShareValue or FetchMisaligned (R252, R265). -/
def Obligations.FaultsArePrecise : Prop :=
  ∀ (i : Instr) (s t : State), exec i s = .next t → s.err = false → t.err = true →
    (∃ c info, c ≠ .invalidShareValue ∧ c ≠ .fetchMisaligned ∧ Faulted c info s t) ∨
    (i = .split ∧ ∃ j, s.inflight = some j ∧
      Faulted .randomUnavailable (BitVec.ofNat 32 j.coefBytes) s.consumeAnswer t)

/-- R139: while a run goes on, PC rises by exactly 4 with each command; it stands still only while a SPLIT waits. -/
def Obligations.RunningPcRisesByFour : Prop :=
  ∀ s t : State, s.Inv → s.schedule = [] → s.busy = true → step s = .next t → t.busy = true →
    (t.inflight = none ∧ t.pc.toNat = s.pc.toNat + 4) ∨ (t.inflight.isSome = true ∧ t.pc = s.pc)

/-- R139: a run ends, or comes to a SPLIT that waits on the RNG, within (LMEM_BYTES - PC)/4 + 1 steps; and the whole run,
through every SPLIT that is answered, begins at most that many commands, a SPLIT counted once. -/
def Obligations.RunEndsWithinLmemWords : Prop :=
  ∀ s : State, EngineReady s →
    (∃ (k : Nat) (t : State), k ≤ (s.params.lmemBytes - s.pc.toNat) / 4 + 1 ∧
      Sys2Proof.core.run k s = .next t ∧ (t.busy = false ∨ t.rngWait = true)) ∧
    ∀ k : Nat, commandsBegun k s ≤ (s.params.lmemBytes - s.pc.toNat) / 4 + 1

/-! ### Sequencer commands -/

/-- R131: NOP only advances PC; it is the one word of its opcode. -/
def Obligations.NopOnlyAdvancesPc : Prop :=
  InRow .nop 0x04000000 0xFFFFFFFF ∧
  (∀ w : Word, w.extractLsb' 26 6 = 0x01 → w ≠ 0x04000000 → ∃ e, decodeWord w = .error e) ∧
  ∀ s : State, ∃ t, exec .nop s = .next t ∧ Completed s t ∧ SameElements s t ∧ SameParams s t ∧ SameMemory s t

/-- R132: HALT clears BUSY and sets DONE, raises `irq` when DONE_IE is set, and changes nothing else. -/
def Obligations.HaltStopsAndSetsDone : Prop :=
  InRow .halt 0x08000000 0xFFFFFFFF ∧
  (∀ w : Word, w.extractLsb' 26 6 = 0x02 → w ≠ 0x08000000 → ∃ e, decodeWord w = .error e) ∧
  ∀ s : State, ∃ t, exec .halt s = .next t ∧ t.busy = false ∧ t.done = true ∧ t.pc = s.pc ∧
    t.err = s.err ∧ t.errCode = s.errCode ∧ t.inflight = s.inflight ∧ (s.doneIe = true → t.irq = true) ∧
    SameControl s t ∧ SameElements s t ∧ SameParams s t ∧ SameMemory s t ∧ SameRng s t ∧ SameSurroundings s t

/-- R133: CSRWI writes the zero-extended immediate to one parameter CSR, indices 8 to 16; any other index makes the word
illegal. -/
def Obligations.CsrwiWritesOneParameterCsr : Prop :=
  (∀ (csr : CsrIx) (imm20 : BitVec 20), 8 ≤ csr.val → csr.val ≤ 16 →
    InRow (.csrwi csr imm20) 0x0C000000 0xFC000000 ∧
    ∀ s : State, ∃ t, exec (.csrwi csr imm20) s = .next t ∧ t.csrRead csr.val = imm20.setWidth 32 ∧
      (∀ n, 8 ≤ n → n ≤ 16 → n ≠ csr.val → t.csrRead n = s.csrRead n) ∧
      Completed s t ∧ SameElements s t ∧ SameMemory s t) ∧
  ∀ w : Word, w.extractLsb' 26 6 = 0x03 → ¬(8 ≤ (w.extractLsb' 20 6).toNat ∧ (w.extractLsb' 20 6).toNat ≤ 16) →
    ∃ e, decodeWord w = .error e

/-- R134: CSRR writes bits 7:0 of what the host would read of CSR 0 to 17 to E[rd]; with the values R134 lists.
Any other index makes the word illegal. -/
def Obligations.CsrrReadsTheLowByteOfACsr : Prop :=
  (∀ (rd : Reg) (csr : CsrIx), csr.val ≤ 17 → InRow (.csrr rd csr) 0x10000000 0xFC00FFFF ∧
    ∀ s : State, ∃ t, exec (.csrr rd csr) s = .next t ∧ OnlyElement rd ((s.csrRead csr.val).setWidth 8) s t) ∧
  (∀ s : State, s.busy = true → s.inflight = none → s.Inv → (s.csrRead 2).setWidth 8 = (0x01 : Byte)) ∧
  (∀ s : State, (s.csrRead 0).setWidth 8 = (0x31 : Byte) ∧ s.csrRead 1 = 0 ∧ s.csrRead 5 = s.pc ∧
    (s.csrRead 17).setWidth 8 = (0 : Byte)) ∧
  ∀ w : Word, w.extractLsb' 26 6 = 0x04 → 17 < (w.extractLsb' 16 6).toNat → ∃ e, decodeWord w = .error e

/-- The model's own choice (log 8): a CSRWI or CSRR term with an index that no word encodes takes the IllegalCommand
fault of its word (R27, R113). -/
def Obligations.CsrCommandsOutsideTheirRangeFault : Prop :=
  (∀ (csr : CsrIx) (imm20 : BitVec 20) (s : State), ¬(8 ≤ csr.val ∧ csr.val ≤ 16) →
    (∃ e, decodeWord (encodeWord (.csrwi csr imm20)) = .error e) ∧
    ∃ t, exec (.csrwi csr imm20) s = .next t ∧ Faulted .illegalCommand (encodeWord (.csrwi csr imm20)) s t) ∧
  ∀ (rd : Reg) (csr : CsrIx) (s : State), 17 < csr.val →
    (∃ e, decodeWord (encodeWord (.csrr rd csr)) = .error e) ∧
    ∃ t, exec (.csrr rd csr) s = .next t ∧ Faulted .illegalCommand (encodeWord (.csrr rd csr)) s t

/-- R135: GLDI writes its immediate to E[rd]. -/
def Obligations.GldiLoadsTheImmediate : Prop :=
  ∀ (rd : Reg) (imm8 : BitVec 8), InRow (.gldi rd imm8) 0x14000000 0xFC3FFF00 ∧
    ∀ s : State, ∃ t, exec (.gldi rd imm8) s = .next t ∧ OnlyElement rd imm8 s t

/-- R136: LDB writes the byte of LMEM at its address to E[rd], or faults with AddressRange and the address. -/
def Obligations.LdbLoadsOneByte : Prop :=
  ∀ (rd : Reg) (addr22 : BitVec 22), InRow (.ldb rd addr22) 0x18000000 0xFC000000 ∧
    ∀ s : State,
      (addr22.toNat < s.params.lmemBytes →
        ∃ t, exec (.ldb rd addr22) s = .next t ∧ OnlyElement rd (s.readByte addr22.toNat) s t) ∧
      (s.params.lmemBytes ≤ addr22.toNat →
        ∃ t, exec (.ldb rd addr22) s = .next t ∧ Faulted .addressRange (addr22.setWidth 32) s t)

/-- R137: STB writes E[rs] to the byte of LMEM at its address and nothing else, or faults with AddressRange and the
address. A later read, a fetch included, gives the stored byte. -/
def Obligations.StbStoresOneByte : Prop :=
  ∀ (rs : Reg) (addr22 : BitVec 22), InRow (.stb rs addr22) 0x1C000000 0xFC000000 ∧
    ∀ s : State,
      (addr22.toNat < s.params.lmemBytes →
        ∃ t, exec (.stb rs addr22) s = .next t ∧ t.readByte addr22.toNat = s.elem rs ∧
          SameMemoryOutside [⟨addr22.toNat, 1⟩] s t ∧ Completed s t ∧ SameElements s t ∧ SameParams s t) ∧
      (s.params.lmemBytes ≤ addr22.toNat →
        ∃ t, exec (.stb rs addr22) s = .next t ∧ Faulted .addressRange (addr22.setWidth 32) s t)

/-! ### Table and arithmetic commands -/

/-- R151: GEXP writes EXP[E[rs1]] to E[rd]; the listed results; never 0. -/
def Obligations.GexpReadsTheExpTable : Prop :=
  (∀ rd rs1 : Reg, InRow (.gexp rd rs1) 0x2C000000 0xFC03FFFF ∧
    ∀ s : State, ∃ t, exec (.gexp rd rs1) s = .next t ∧ OnlyElement rd (expTable (s.elem rs1).toNat) s t) ∧
  expTable 0 = 1 ∧ expTable 255 = 1 ∧ expTable 254 = 0x8E ∧ expTable 0x53 = 0xBB ∧
  ∀ x : Byte, expTable x.toNat ≠ 0

/-- R152: GLOG writes LOG[E[rs1]] to E[rd]; LOG[0] is 0 and does not fault; the result is in 0 to 254. -/
def Obligations.GlogReadsTheLogTable : Prop :=
  (∀ rd rs1 : Reg, InRow (.glog rd rs1) 0x30000000 0xFC03FFFF ∧
    ∀ s : State, ∃ t, exec (.glog rd rs1) s = .next t ∧ OnlyElement rd (logTable (s.elem rs1)) s t) ∧
  logTable 0 = 0 ∧ logTable 1 = 0 ∧ logTable 0xBB = 0x53 ∧ ∀ x : Byte, (logTable x).toNat ≤ 254

/-- R153: GEXP then GLOG gives the operand back, but 0 for 255; GLOG then GEXP gives it back, but 1 for 0. -/
def Obligations.TableCommandsRoundTrip : Prop :=
  ∀ (s : State) (r q p : Reg),
    (∃ t u, exec (.gexp q r) s = .next t ∧ exec (.glog p q) t = .next u ∧
      u.elem p = if s.elem r = 255 then 0 else s.elem r) ∧
    ∃ t u, exec (.glog q r) s = .next t ∧ exec (.gexp p q) t = .next u ∧
      u.elem p = if s.elem r = 0 then 1 else s.elem r

/-- R163: GXOR writes the xor of its sources to E[rd]. -/
def Obligations.GxorAddsInTheField : Prop :=
  ∀ rd rs1 rs2 : Reg, InRow (.gxor rd rs1 rs2) 0x20000000 0xFC003FFF ∧
    ∀ s : State, ∃ t, exec (.gxor rd rs1 rs2) s = .next t ∧ OnlyElement rd (s.elem rs1 ^^^ s.elem rs2) s t

/-- R164: GMUL writes the field product of its sources to E[rd]; the listed results. -/
def Obligations.GmulMultipliesInTheField : Prop :=
  (∀ rd rs1 rs2 : Reg, InRow (.gmul rd rs1 rs2) 0x24000000 0xFC003FFF ∧
    ∀ s : State, ∃ t, exec (.gmul rd rs1 rs2) s = .next t ∧
      OnlyElement rd (if s.elem rs1 = 0 ∨ s.elem rs2 = 0 then 0
        else expTable ((logTable (s.elem rs1)).toNat + (logTable (s.elem rs2)).toNat)) s t) ∧
  (∀ a : Byte, gmul a 0 = 0 ∧ gmul 0 a = 0 ∧ gmul a 1 = a ∧ gmul 1 a = a) ∧
  gmul 0xFF 0xFF = 0xE2 ∧ gmul 0x80 0x02 = 0x1D ∧ gmul 0x8E 0x02 = 0x01 ∧ gmul 0x53 0xCA = 0x8F

/-- R165: GDIV by a nonzero divisor writes the field quotient to E[rd]; by zero, 0/0 included, it faults with
DivideByZero and info 0; the listed results. -/
def Obligations.GdivDividesOrFaults : Prop :=
  (∀ rd rs1 rs2 : Reg, InRow (.gdiv rd rs1 rs2) 0x28000000 0xFC003FFF ∧
    ∀ s : State,
      (s.elem rs2 ≠ 0 → ∃ t, exec (.gdiv rd rs1 rs2) s = .next t ∧
        OnlyElement rd (if s.elem rs1 = 0 then 0
          else expTable ((logTable (s.elem rs1)).toNat + 255 - (logTable (s.elem rs2)).toNat)) s t) ∧
      (s.elem rs2 = 0 → ∃ t, exec (.gdiv rd rs1 rs2) s = .next t ∧ Faulted .divideByZero 0 s t)) ∧
  (∀ b : Byte, b ≠ 0 → gdiv 0 b = some 0 ∧ gdiv b b = some 1 ∧ ∃ q, gdiv 1 b = some q ∧ gmul q b = 1) ∧
  gdiv 1 0x02 = some 0x8E ∧ gdiv 1 0x03 = some 0xF4 ∧ gdiv 1 0xFF = some 0xFD ∧ gdiv 0x8F 0xCA = some 0x53

/-- R180: HSTEP writes gmul(E[rd], E[rs1]) xor E[rs2], all read before the write, to E[rd]. -/
def Obligations.HstepIsOneHornerStep : Prop :=
  (∀ rd rs1 rs2 : Reg, InRow (.hstep rd rs1 rs2) 0x34000000 0xFC003FFF ∧
    ∀ s : State, ∃ t, exec (.hstep rd rs1 rs2) s = .next t ∧
      OnlyElement rd (gmul (s.elem rd) (s.elem rs1) ^^^ s.elem rs2) s t) ∧
  (∀ res ak : Byte, hornerStep res 0 ak = ak ∧ hornerStep res 1 ak = res ^^^ ak ∧ hornerStep 0 res ak = ak) ∧
  hornerStep 0xA5 0x03 0x3C = 0xCE ∧ hornerStep 0xCE 0x03 0x42 = 0x0D

/-! ### Share generation -/

/-- R182: EVAL and SPLIT validate the secret length, then the threshold, then the share count, before anything else. -/
def Obligations.GenerationParametersAreValidatedFirst : Prop :=
  ∀ (i : Instr) (s : State), (i = .eval ∨ i = .split) → s.inflight = none →
    (s.secLen.toNat = 0 ∨ 255 < s.secLen.toNat →
      ∃ t, exec i s = .next t ∧ Faulted .invalidSecret s.secLen s t) ∧
    (1 ≤ s.secLen.toNat → s.secLen.toNat ≤ 255 → s.needed.toNat < 2 ∨ s.total.toNat < s.needed.toNat →
      ∃ t, exec i s = .next t ∧ Faulted .invalidThreshold s.needed s t) ∧
    (1 ≤ s.secLen.toNat → s.secLen.toNat ≤ 255 → 2 ≤ s.needed.toNat → s.needed.toNat ≤ s.total.toNat →
      255 < s.total.toNat → ∃ t, exec i s = .next t ∧ Faulted .invalidShareCount s.total s t)

/-- R183, R184, R185: after the validation, EVAL and SPLIT report the first of the regions S, C, O, D that is out of
range, and then any overlap of their pairs. -/
def Obligations.GenerationRegionsAreChecked : Prop :=
  ∀ (i : Instr) (s : State), (i = .eval ∨ i = .split) → s.inflight = none →
    1 ≤ s.secLen.toNat → s.secLen.toNat ≤ 255 → 2 ≤ s.needed.toNat → s.needed.toNat ≤ s.total.toNat →
    s.total.toNat ≤ 255 →
    let size := s.params.lmemBytes
    let S : Region := ⟨s.secAddr.toNat, s.secLen.toNat⟩
    let C : Region := ⟨s.coefAddr.toNat, s.secLen.toNat * (s.needed.toNat - 1)⟩
    let O : Region := ⟨s.outAddr.toNat, s.total.toNat * s.secLen.toNat⟩
    let D : Region := ⟨s.descAddr.toNat, 8 * s.total.toNat⟩
    let fits := fun r : Region => r.base + r.len ≤ size
    (¬fits S → ∃ t, exec i s = .next t ∧ Faulted .addressRange s.secAddr s t) ∧
    (fits S → ¬fits C → ∃ t, exec i s = .next t ∧ Faulted .addressRange s.coefAddr s t) ∧
    (fits S → fits C → ¬fits O → ∃ t, exec i s = .next t ∧ Faulted .addressRange s.outAddr s t) ∧
    (fits S → fits C → fits O → ¬fits D → ∃ t, exec i s = .next t ∧ Faulted .addressRange s.descAddr s t) ∧
    (fits S → fits C → fits O → fits D →
      (overlap O S = true ∨ overlap O C = true ∨ overlap D S = true ∨ overlap D C = true ∨ overlap O D = true ∨
        (i = .split ∧ overlap C S = true)) → ∃ t, exec i s = .next t ∧ Faulted .bufferOverlap 0 s t)

/-- R187, R189, R190: when EVAL's checks pass it writes every share byte, by Horner evaluation of the coefficients as
LMEM holds them (R186), and the descriptors, sets COUNT, and changes nothing else. -/
def Obligations.EvalWritesSharesAndDescriptors : Prop :=
  InRow .eval 0x40000000 0xFFFFFFFF ∧
  ∀ s : State, s.genJob.Accepted s.params.lmemBytes false →
    let L := s.secLen.toNat
    let n := s.needed.toNat
    let T := s.total.toNat
    ∃ t, exec .eval s = .next t ∧
      (∀ x pos, 1 ≤ x → x ≤ T → pos < L →
        t.readByte (s.outAddr.toNat + (x - 1) * L + pos) =
          horner (BitVec.ofNat 8 x)
            (((List.range (n - 1)).map fun k => s.readByte (s.coefAddr.toNat + pos * (n - 1) + k)) ++
              [s.readByte (s.secAddr.toNat + pos)])) ∧
      (∀ i, i < T → (t.read16 (s.descAddr.toNat + 8 * i)).toNat = i + 1 ∧
        (t.read16 (s.descAddr.toNat + 8 * i + 2)).toNat = L ∧
        (t.read32 (s.descAddr.toNat + 8 * i + 4)).toNat = s.outAddr.toNat + i * L) ∧
      t.count = s.total ∧ t.secLen = s.secLen ∧ SameInputCsrs s t ∧ SameElements s t ∧ Completed s t ∧
      SameMemoryOutside [⟨s.outAddr.toNat, T * L⟩, ⟨s.descAddr.toNat, 8 * T⟩] s t

/-- R188, R191, R24: when SPLIT's checks pass its first step sends the request: RNGWAIT is 1, the command is in flight
with the CSRs it read, and nothing else changes. That SPLIT takes two steps is the model's form (log 7). -/
def Obligations.SplitRequestWaitsOnTheRng : Prop :=
  InRow .split 0x44000000 0xFFFFFFFF ∧
  ∀ s : State, s.inflight = none → s.genJob.Accepted s.params.lmemBytes true →
    ∃ t, exec .split s = .next t ∧ t.rngWait = true ∧ t.inflight = some s.genJob ∧ t.pc = s.pc ∧
      t.busy = s.busy ∧ t.done = s.done ∧ t.err = s.err ∧ t.errCode = s.errCode ∧ SameControl s t ∧
      SameElements s t ∧ SameParams s t ∧ SameMemory s t ∧ SameRng s t ∧ SameSurroundings s t

/-- R188, R191: when the RNG answers K bytes, SPLIT writes them to C, evaluates with them, writes shares and
descriptors, sets COUNT and clears RNGWAIT, and changes nothing else but taking the answer (log 3). -/
def Obligations.SplitCompletesWithTheRandomBytes : Prop :=
  ∀ (s : State) (j : GenJob) (r : List Byte), s.inflight = some j → j.Accepted s.params.lmemBytes true →
    s.rngAnswer = .bytes r → r.length = j.secLen.toNat * (j.needed.toNat - 1) →
    let L := j.secLen.toNat
    let n := j.needed.toNat
    let T := j.total.toNat
    ∃ t, exec .split s = .next t ∧
      (∀ k, k < r.length → t.readByte (j.coefAddr.toNat + k) = r.getD k 0) ∧
      (∀ x pos, 1 ≤ x → x ≤ T → pos < L →
        t.readByte (j.outAddr.toNat + (x - 1) * L + pos) =
          horner (BitVec.ofNat 8 x)
            ((r.drop (pos * (n - 1))).take (n - 1) ++ [s.readByte (j.secAddr.toNat + pos)])) ∧
      (∀ i, i < T → (t.read16 (j.descAddr.toNat + 8 * i)).toNat = i + 1 ∧
        (t.read16 (j.descAddr.toNat + 8 * i + 2)).toNat = L ∧
        (t.read32 (j.descAddr.toNat + 8 * i + 4)).toNat = j.outAddr.toNat + i * L) ∧
      t.count = j.total ∧ t.secLen = s.secLen ∧ SameInputCsrs s t ∧ SameElements s t ∧ SameControl s t ∧
      t.pc = s.pc + 4 ∧ t.inflight = none ∧ t.rngWait = false ∧ t.busy = s.busy ∧ t.done = s.done ∧
      t.err = s.err ∧ t.errCode = s.errCode ∧ t.draws = s.draws + 1 ∧ t.rngScript = s.rngScript.tail ∧
      SameSurroundings s t ∧
      SameMemoryOutside [⟨j.coefAddr.toNat, L * (n - 1)⟩, ⟨j.outAddr.toNat, T * L⟩, ⟨j.descAddr.toNat, 8 * T⟩] s t

/-- R188, R264: when the RNG answers `Unavailable`, SPLIT faults with RandomUnavailable and K, with no other effect but
taking the answer. -/
def Obligations.UnavailableRandomnessFaults : Prop :=
  ∀ (s : State) (j : GenJob), s.inflight = some j → s.rngAnswer = .unavailable →
    ∃ t, exec .split s = .next t ∧
      Faulted .randomUnavailable (BitVec.ofNat 32 (j.secLen.toNat * (j.needed.toNat - 1))) s.consumeAnswer t

/-- R300, and the model's own form of it (log 3): through any number of steps in which the RNG sends nothing that
answers the request, the SPLIT stays in flight, BUSY and RNGWAIT stay 1, and registers, PC and LMEM are unchanged. -/
def Obligations.SplitWaitsUntilAnAnswer : Prop :=
  ∀ (k : Nat) (s : State) (j : GenJob), s.schedule = [] → s.rstLow = false → s.busy = true → s.inflight = some j →
    k ≤ s.rngScript.length →
    (∀ a ∈ s.rngScript.take k, ∃ r, a = .bytes r ∧ r.length ≠ j.secLen.toNat * (j.needed.toNat - 1)) →
    ∃ t : State, Sys2Proof.core.run k s = .next t ∧ t.inflight = some j ∧ t.rngWait = true ∧ t.pc = s.pc ∧
      SameStatus s t ∧ SameControl s t ∧ SameElements s t ∧ SameParams s t ∧ SameMemory s t ∧ SameSurroundings s t

/-! ### Share reconstruction -/

/-- R212: LWGT, LCOMB and RECOVER first check COUNT, then the table's range, then record by record, and report the
first failure; the X checks are LWGT's and RECOVER's, the L checks LCOMB's and RECOVER's. -/
def Obligations.ShareSetValidationReportsTheFirstFailure : Prop :=
  ∀ (c : Instr) (xChecks lChecks : Bool) (s : State),
    (c, xChecks, lChecks) ∈ [(Instr.lwgt, true, false), (Instr.lcomb, false, true), (Instr.recover, true, true)] →
    let N := s.count.toNat
    let x := fun i => s.read16 (s.descAddr.toNat + 8 * i)
    let len := fun i => s.read16 (s.descAddr.toNat + 8 * i + 2)
    let badX := fun i => xChecks = true ∧ ((x i).toNat < 1 ∨ 255 < (x i).toNat)
    let dup := fun i => xChecks = true ∧ ∃ k, k < i ∧ x k = x i
    let badLen := fun i => lChecks = true ∧ ((len i).toNat = 0 ∨ len i ≠ len 0)
    (N < 2 → ∃ t, exec c s = .next t ∧ Faulted .insufficientShares s.count s t) ∧
    (2 ≤ N → s.params.lmemBytes < s.descAddr.toNat + 8 * N →
      ∃ t, exec c s = .next t ∧ Faulted .addressRange s.descAddr s t) ∧
    (2 ≤ N → s.descAddr.toNat + 8 * N ≤ s.params.lmemBytes → ∀ i, i < N →
      (∀ k, k < i → ¬badX k ∧ ¬dup k ∧ ¬badLen k) →
      (badX i → ∃ t, exec c s = .next t ∧ Faulted .outOfRangeX (BitVec.ofNat 32 i) s t) ∧
      (¬badX i → dup i → ∃ t, exec c s = .next t ∧ Faulted .duplicateX (BitVec.ofNat 32 i) s t) ∧
      (¬badX i → ¬dup i → badLen i →
        ∃ t, exec c s = .next t ∧ Faulted .inconsistentShareLength (BitVec.ofNat 32 i) s t))

/-- R213, R215: after the validation, LWGT, LCOMB and RECOVER report the first of their regions W, Y_i, SEC that is out
of range, and then any overlap of their pairs. -/
def Obligations.ReconstructionRegionsAreChecked : Prop :=
  ∀ s : State,
    let fits := fun r : Region => r.base + r.len ≤ s.params.lmemBytes
    let N := s.count.toNat
    let L := (s.read16 (s.descAddr.toNat + 2)).toNat
    let ptr := fun i => s.read32 (s.descAddr.toNat + 8 * i + 4)
    let Dt : Region := ⟨s.descAddr.toNat, 8 * N⟩
    let W : Region := ⟨s.wAddr.toNat, N⟩
    let Y := fun i => (⟨(ptr i).toNat, L⟩ : Region)
    let SEC : Region := ⟨s.secAddr.toNat, L⟩
    (s.ShareSetAccepted true false →
      (¬fits W → ∃ t, exec .lwgt s = .next t ∧ Faulted .addressRange s.wAddr s t) ∧
      (fits W → overlap W Dt = true → ∃ t, exec .lwgt s = .next t ∧ Faulted .bufferOverlap 0 s t)) ∧
    ∀ (c : Instr) (x : Bool), (c, x) ∈ [(Instr.lcomb, false), (Instr.recover, true)] → s.ShareSetAccepted x true →
      (¬fits W → ∃ t, exec c s = .next t ∧ Faulted .addressRange s.wAddr s t) ∧
      (fits W → ∀ i, i < N → (∀ k, k < i → fits (Y k)) → ¬fits (Y i) →
        ∃ t, exec c s = .next t ∧ Faulted .addressRange (ptr i) s t) ∧
      (fits W → (∀ i, i < N → fits (Y i)) → ¬fits SEC →
        ∃ t, exec c s = .next t ∧ Faulted .addressRange s.secAddr s t) ∧
      (fits W → (∀ i, i < N → fits (Y i)) → fits SEC →
        (overlap SEC Dt = true ∨ overlap SEC W = true ∨ (∃ i, i < N ∧ overlap SEC (Y i) = true) ∨
          (c = .recover ∧ (overlap W Dt = true ∨ ∃ i, i < N ∧ overlap W (Y i) = true))) →
        ∃ t, exec c s = .next t ∧ Faulted .bufferOverlap 0 s t)

/-- R214, R217: when LWGT's checks pass it writes the weight of each share, the quotient of the two products, at W_ADDR,
and changes nothing else. -/
def Obligations.LwgtWritesTheWeights : Prop :=
  InRow .lwgt 0x48000000 0xFFFFFFFF ∧
  ∀ s : State, s.LwgtAccepted →
    let N := s.count.toNat
    let xs := (List.range N).map fun i => (s.read16 (s.descAddr.toNat + 8 * i)).setWidth 8
    ∃ t, exec .lwgt s = .next t ∧
      (∀ i, i < N → gdiv ((xs.eraseIdx i).foldl gmul 1)
        ((xs.eraseIdx i).foldl (fun den xj => gmul den (gxor xj (xs.getD i 0))) 1) =
          some (t.readByte (s.wAddr.toNat + i))) ∧
      Completed s t ∧ SameElements s t ∧ SameParams s t ∧ SameMemoryOutside [⟨s.wAddr.toNat, N⟩] s t

/-- R216, R218: when LCOMB's checks pass it writes the combination of the share bytes with the weights in LMEM at
SEC_ADDR, and the share length to SEC_LEN, and changes nothing else. -/
def Obligations.LcombCombinesWithTheStoredWeights : Prop :=
  InRow .lcomb 0x4C000000 0xFFFFFFFF ∧
  ∀ s : State, s.CombineAccepted false →
    let N := s.count.toNat
    let L := (s.read16 (s.descAddr.toNat + 2)).toNat
    let ptr := fun i => (s.read32 (s.descAddr.toNat + 8 * i + 4)).toNat
    ∃ t, exec .lcomb s = .next t ∧
      (∀ pos, pos < L → t.readByte (s.secAddr.toNat + pos) =
        (List.range N).foldl
          (fun acc i => acc ^^^ gmul (s.readByte (ptr i + pos)) (s.readByte (s.wAddr.toNat + i))) 0) ∧
      t.secLen.toNat = L ∧ t.count = s.count ∧ SameInputCsrs s t ∧ Completed s t ∧ SameElements s t ∧
      SameMemoryOutside [⟨s.secAddr.toNat, L⟩] s t

/-- R214, R216, R219: when RECOVER's checks pass it writes the weights at W_ADDR, their combination with the share bytes
at SEC_ADDR and the share length to SEC_LEN, and changes nothing else. -/
def Obligations.RecoverWritesWeightsAndSecret : Prop :=
  InRow .recover 0x50000000 0xFFFFFFFF ∧
  ∀ s : State, s.CombineAccepted true →
    let N := s.count.toNat
    let L := (s.read16 (s.descAddr.toNat + 2)).toNat
    let ptr := fun i => (s.read32 (s.descAddr.toNat + 8 * i + 4)).toNat
    let xs := (List.range N).map fun i => (s.read16 (s.descAddr.toNat + 8 * i)).setWidth 8
    ∃ t, exec .recover s = .next t ∧
      (∀ i, i < N → gdiv ((xs.eraseIdx i).foldl gmul 1)
        ((xs.eraseIdx i).foldl (fun den xj => gmul den (gxor xj (xs.getD i 0))) 1) =
          some (t.readByte (s.wAddr.toNat + i))) ∧
      (∀ pos, pos < L → t.readByte (s.secAddr.toNat + pos) =
        (List.range N).foldl
          (fun acc i => acc ^^^ gmul (s.readByte (ptr i + pos)) (t.readByte (s.wAddr.toNat + i))) 0) ∧
      t.secLen.toNat = L ∧ t.count = s.count ∧ SameInputCsrs s t ∧ Completed s t ∧ SameElements s t ∧
      SameMemoryOutside [⟨s.wAddr.toNat, N⟩, ⟨s.secAddr.toNat, L⟩] s t

/-- R214, R266: after the X checks no weight denominator is zero, so DivideByZero is dead in LWGT and RECOVER, and no
weight is zero. -/
def Obligations.WeightDenominatorsAreNeverZero : Prop :=
  ∀ (s : State) (lChecks : Bool), s.ShareSetAccepted true lChecks →
    s.weightTrap = none ∧ ∀ w ∈ s.weights, w ≠ 0

/-- R192, on the machine: EVAL answers a state from any `needed` or more of whose records, arranged as a table, RECOVER
writes the secret back. -/
def Obligations.RecoverUndoesEval : Prop :=
  ∀ s : State, s.genJob.Accepted s.params.lmemBytes false →
    ∃ t, exec .eval s = .next t ∧ RecoversSecret s.genJob s t

/-! ### Memory and the host -/

/-- R71: a 32-bit value stored at a reads back as its bytes from the lowest up, as two 16-bit halves, and whole. -/
def Obligations.WordsAreLittleEndian : Prop :=
  ∀ (s : State) (a : Nat) (v : Word),
    let t := s.memWrite a 4 v
    t.readByte a = v.extractLsb' 0 8 ∧ t.readByte (a + 1) = v.extractLsb' 8 8 ∧
      t.readByte (a + 2) = v.extractLsb' 16 8 ∧ t.readByte (a + 3) = v.extractLsb' 24 8 ∧
      t.read16 a = v.extractLsb' 0 16 ∧ t.read16 (a + 2) = v.extractLsb' 16 16 ∧ t.read32 a = v ∧
      SameMemoryOutside [⟨a, 4⟩] s t

/-- R79: a host access to LMEM succeeds exactly when it is aligned, in range and the engine is idle; a read then
answers the bytes, a write stores its low bytes; otherwise it gets ERROR and changes nothing but the response. The model's
own choices (log 11): a read's data is zero-extended, a write's data is the low bytes of a word, an OK write answers 0. -/
def Obligations.HostReachesLmemOnlyWhenIdle : Prop :=
  ∀ (s : State) (a : Nat) (w : HostWidth) (data : Word), a < 0x400000 →
    let addr := s.params.blockBase + 0x400000 + a
    let good := a % w.bytes = 0 ∧ a + w.bytes ≤ s.params.lmemBytes ∧ s.busy = false
    (good → s.hostAccess (.read addr w) =
      { s with hostResp := some ⟨true, match w with
        | .one => (s.readByte a).setWidth 32
        | .two => (s.read16 a).setWidth 32
        | .four => s.read32 a⟩ }) ∧
    (good → (∀ i, i < w.bytes → (s.hostAccess (.write addr w data)).readByte (a + i) = data.extractLsb' (8 * i) 8) ∧
      (s.hostAccess (.write addr w data)).hostResp = some ⟨true, 0⟩ ∧
      SameMemoryOutside [⟨a, w.bytes⟩] s (s.hostAccess (.write addr w data)) ∧
      { s.hostAccess (.write addr w data) with mem := s.mem, hostResp := s.hostResp } = s) ∧
    (¬good → s.hostAccess (.read addr w) = { s with hostResp := some ⟨false, 0⟩ } ∧
      s.hostAccess (.write addr w data) = { s with hostResp := some ⟨false, 0⟩ })

/-- R77, R80: in the register window only an aligned access of width 4 reaches a CSR, by index offset/4; every other
one, and every access to a reserved offset, gets ERROR and changes nothing but the response. The model's own choices
(log 11): an OK write answers data 0, and an access outside the 8 MiB window is not the engine's, so that nothing changes
and there is no response. -/
def Obligations.HostReachesCsrsByAlignedWords : Prop :=
  (∀ (s : State) (off : Nat) (w : HostWidth) (data : Word), off < 0x800000 →
    let addr := s.params.blockBase + off
    (off < 0x100 → w = .four → off % 4 = 0 →
      s.hostAccess (.read addr w) = { s with hostResp := some ⟨true, s.csrRead (off / 4)⟩ } ∧
      s.hostAccess (.write addr w data) =
        match s.csrWrite (off / 4) data with
        | some s' => { s' with hostResp := some ⟨true, 0⟩ }
        | none => { s with hostResp := some ⟨false, 0⟩ }) ∧
    ((off < 0x100 ∧ ¬(w = .four ∧ off % 4 = 0)) ∨ (0x100 ≤ off ∧ off < 0x400000) ∨
        0x400000 + s.params.lmemBytes ≤ off →
      s.hostAccess (.read addr w) = { s with hostResp := some ⟨false, 0⟩ } ∧
      s.hostAccess (.write addr w data) = { s with hostResp := some ⟨false, 0⟩ })) ∧
  ∀ (s : State) (addr : Nat) (w : HostWidth) (data : Word),
    addr < s.params.blockBase ∨ s.params.blockBase + 0x800000 ≤ addr →
    s.hostAccess (.read addr w) = s ∧ s.hostAccess (.write addr w data) = s

/-- R26, R32: what each defined CSR index reads; RNGWAIT is the SPLIT in flight (log 13). R28, R29: while BUSY,
a host write of ENTRY or of a parameter CSR is an ERROR; when idle it stores all 32 bits. CTRL, STATUS and IRQEN can be written at any time. Writes of the read-only and reserved indices are ignored; the reserved
ones read 0, and 32 to 47 show E0 to E15. -/
def Obligations.HostCsrWritesFollowTheAccessKinds : Prop :=
  (∀ s : State,
    s.csrRead 0 = 0x47463031 ∧ s.csrRead 1 = 0 ∧
    ((s.csrRead 2).getLsbD 0 = s.busy ∧ (s.csrRead 2).getLsbD 1 = s.done ∧ (s.csrRead 2).getLsbD 2 = s.err ∧
      (s.csrRead 2).getLsbD 3 = s.inflight.isSome ∧ (s.csrRead 2).extractLsb' 4 4 = 0 ∧
      (s.csrRead 2).extractLsb' 8 8 = s.errCode ∧ (s.csrRead 2).extractLsb' 16 16 = 0) ∧
    ((s.csrRead 3).getLsbD 0 = s.doneIe ∧ (s.csrRead 3).getLsbD 1 = s.errIe ∧ (s.csrRead 3).extractLsb' 2 30 = 0) ∧
    s.csrRead 4 = s.entry ∧ s.csrRead 5 = s.pc ∧ s.csrRead 6 = s.errPc ∧ s.csrRead 7 = s.errInfo ∧
    s.csrRead 8 = s.secAddr ∧ s.csrRead 9 = s.secLen ∧ s.csrRead 10 = s.needed ∧ s.csrRead 11 = s.total ∧
    s.csrRead 12 = s.coefAddr ∧ s.csrRead 13 = s.outAddr ∧ s.csrRead 14 = s.count ∧ s.csrRead 15 = s.descAddr ∧
    s.csrRead 16 = s.wAddr ∧ (s.csrRead 17).toNat = s.params.lmemBytes) ∧
  ∀ (s : State) (n : Nat) (v : Word), n < 64 →
    ((n = 4 ∨ (8 ≤ n ∧ n ≤ 16)) → s.busy = true → s.csrWrite n v = none) ∧
    ((n = 4 ∨ (8 ≤ n ∧ n ≤ 16)) → s.busy = false → ∃ t, s.csrWrite n v = some t ∧ t.csrRead n = v ∧
      (∀ k, k ≠ n → t.csrRead k = s.csrRead k) ∧ SameStatus s t ∧ SameElements s t ∧ SameMemory s t ∧ SameRng s t ∧
      SameSurroundings s t) ∧
    (1 ≤ n ∧ n ≤ 3 → ∃ t, s.csrWrite n v = some t) ∧
    (n = 0 ∨ (5 ≤ n ∧ n ≤ 7) ∨ 17 ≤ n → s.csrWrite n v = some s) ∧
    ((18 ≤ n ∧ n ≤ 31) ∨ 48 ≤ n → s.csrRead n = 0) ∧
    ∀ r : Reg, s.csrRead (32 + r.val) = (s.elem r).setWidth 32

/-- R32: a write of STATUS clears DONE where bit 1 is 1, and ERR and ERRCODE where bit 2 is 1, and changes nothing else. -/
def Obligations.StatusBitsClearOnWritingOne : Prop :=
  ∀ (s : State) (v : Word), ∃ t, s.csrWrite 2 v = some t ∧
    t.done = (if v.getLsbD 1 then false else s.done) ∧ t.err = (if v.getLsbD 2 then false else s.err) ∧
    t.errCode = (if v.getLsbD 2 then 0 else s.errCode) ∧ t.busy = s.busy ∧ t.inflight = s.inflight ∧ t.pc = s.pc ∧
    SameControl s t ∧ SameElements s t ∧ SameParams s t ∧ SameMemory s t ∧ SameRng s t ∧ SameSurroundings s t

/-- R33, R54, R260: a write of IRQEN sets the two enables and nothing else; `irq` is the level of the enabled STATUS
bits, and 0 after reset. -/
def Obligations.InterruptIsTheEnabledLevel : Prop :=
  (∀ s : State, s.irq = true ↔
    (s.statusWord.getLsbD 1 = true ∧ (s.csrRead 3).getLsbD 0 = true) ∨
    (s.statusWord.getLsbD 2 = true ∧ (s.csrRead 3).getLsbD 1 = true)) ∧
  State.reset.irq = false ∧
  ∀ (s : State) (v : Word), ∃ t, s.csrWrite 3 v = some t ∧ t.csrRead 3 = v &&& 3 ∧
    { t with doneIe := s.doneIe, errIe := s.errIe } = s

/-- R31, R262: a write of CTRL. With SRST it is the soft reset, whatever START is, also while BUSY; with neither it has no
effect. START alone is ignored while BUSY; when idle it clears DONE, ERR and ERRCODE and loads PC from ENTRY, and sets
BUSY, or for a misaligned ENTRY faults with FetchMisaligned; nothing else changes. An aligned ENTRY at or beyond
LMEM_BYTES starts, and the first step then faults with FetchRange. CTRL reads 0. -/
def Obligations.StartBeginsARunOrFaults : Prop :=
  ∀ (s : State) (v : Word),
    s.csrRead 1 = 0 ∧
    (v.getLsbD 1 = true → s.csrWrite 1 v = some s.srst) ∧
    (v.getLsbD 0 = false → v.getLsbD 1 = false → s.csrWrite 1 v = some s) ∧
    (v.getLsbD 0 = true → v.getLsbD 1 = false →
      let started := { s with done := false, err := false, errCode := 0, pc := s.entry, busy := true }
      (s.busy = true → s.csrWrite 1 v = some s) ∧
      (s.busy = false → s.entry.toNat % 4 = 0 → s.csrWrite 1 v = some started) ∧
      (s.busy = false → s.entry.toNat % 4 ≠ 0 → s.csrWrite 1 v =
        some { s with
          done := false
          err := true
          errCode := 0x11
          pc := s.entry
          errPc := s.entry
          errInfo := s.entry }) ∧
      (s.schedule = [] → s.rstLow = false → s.inflight = none → s.params.lmemBytes ≤ s.entry.toNat →
        ∃ t, step started = .next t ∧ Faulted .fetchRange s.entry started t))

/-- R263, R299: an SRST resets every register, and of LMEM changes only the output regions of the macro command it
aborts, each byte of which that lies in LMEM then holds a draw: those of the SPLIT that waits, or those of the command in
flight at PC; a command that is no macro command has none. The event of an SRST in flight, and the SEC region where no
record 0 can be read, are the model's form (log 6). -/
def Obligations.SoftResetChangesOnlyAbortedOutputs : Prop :=
  (∀ s : State, s.inflight = none → Aborted [] s s.srst ∧ SameMemory s s.srst) ∧
  (∀ (s : State) (j : GenJob), s.inflight = some j →
    Aborted [⟨j.coefAddr.toNat, j.secLen.toNat * (j.needed.toNat - 1)⟩,
      ⟨j.outAddr.toNat, j.total.toNat * j.secLen.toNat⟩, ⟨j.descAddr.toNat, 8 * j.total.toNat⟩] s s.srst) ∧
  (∀ (s : State) (i : Instr), s.busy = true → s.inflight = none → s.fetch = .ok i →
    let C : Region := ⟨s.coefAddr.toNat, s.secLen.toNat * (s.needed.toNat - 1)⟩
    let O : Region := ⟨s.outAddr.toNat, s.total.toNat * s.secLen.toNat⟩
    let D : Region := ⟨s.descAddr.toNat, 8 * s.total.toNat⟩
    let W : Region := ⟨s.wAddr.toNat, s.count.toNat⟩
    let SEC : Region := ⟨s.secAddr.toNat,
      if 0 < s.count.toNat ∧ s.descAddr.toNat + 4 ≤ s.params.lmemBytes then (s.read16 (s.descAddr.toNat + 2)).toNat
      else 0⟩
    (i ∉ [Instr.eval, .split, .lwgt, .lcomb, .recover] → Aborted [] s s.srstInFlight) ∧
    (i = .eval → Aborted [O, D] s s.srstInFlight) ∧
    (i = .split → Aborted [C, O, D] s s.srstInFlight) ∧
    (i = .lwgt → Aborted [W] s s.srstInFlight) ∧
    (i = .lcomb → Aborted [SEC] s s.srstInFlight) ∧
    (i = .recover → Aborted [W, SEC] s s.srstInFlight)) ∧
  ∀ s : State, (s.busy = true → s.inflight = none → ∀ i, s.fetch ≠ .ok i) → s.srstInFlight = s.srst

/-- R192, on the machine: when the RNG answers, SPLIT completes with a state from any `needed` or more of whose records,
arranged as a table, RECOVER writes the secret back, whatever the answer's bytes (its script: log 3). -/
def Obligations.RecoverUndoesSplit : Prop :=
  ∀ (s : State) (j : GenJob) (r : List Byte), s.inflight = some j → j.Accepted s.params.lmemBytes true →
    s.rngAnswer = .bytes r → r.length = j.secLen.toNat * (j.needed.toNat - 1) →
    ∃ t, exec .split s = .next t ∧ RecoversSecret j s t
end

