-- ==== Sys2Proof/Laws/State.lean ====
section
/-! SUPPORT. One lemma per field per update of the state, so that no proof unfolds a record update. -/

namespace Sys2Proof.Machine

section setElem

variable (s : State) (r : Reg) (v : Byte)

@[simp] theorem State.setElem_params : (s.setElem r v).params = s.params := rfl
@[simp] theorem State.setElem_e : (s.setElem r v).e = s.e.set r.val v r.isLt := rfl
@[simp] theorem State.setElem_pc : (s.setElem r v).pc = s.pc := rfl
@[simp] theorem State.setElem_busy : (s.setElem r v).busy = s.busy := rfl
@[simp] theorem State.setElem_done : (s.setElem r v).done = s.done := rfl
@[simp] theorem State.setElem_err : (s.setElem r v).err = s.err := rfl
@[simp] theorem State.setElem_errCode : (s.setElem r v).errCode = s.errCode := rfl
@[simp] theorem State.setElem_inflight : (s.setElem r v).inflight = s.inflight := rfl
@[simp] theorem State.setElem_doneIe : (s.setElem r v).doneIe = s.doneIe := rfl
@[simp] theorem State.setElem_errIe : (s.setElem r v).errIe = s.errIe := rfl
@[simp] theorem State.setElem_entry : (s.setElem r v).entry = s.entry := rfl
@[simp] theorem State.setElem_errPc : (s.setElem r v).errPc = s.errPc := rfl
@[simp] theorem State.setElem_errInfo : (s.setElem r v).errInfo = s.errInfo := rfl
@[simp] theorem State.setElem_secAddr : (s.setElem r v).secAddr = s.secAddr := rfl
@[simp] theorem State.setElem_secLen : (s.setElem r v).secLen = s.secLen := rfl
@[simp] theorem State.setElem_needed : (s.setElem r v).needed = s.needed := rfl
@[simp] theorem State.setElem_total : (s.setElem r v).total = s.total := rfl
@[simp] theorem State.setElem_coefAddr : (s.setElem r v).coefAddr = s.coefAddr := rfl
@[simp] theorem State.setElem_outAddr : (s.setElem r v).outAddr = s.outAddr := rfl
@[simp] theorem State.setElem_count : (s.setElem r v).count = s.count := rfl
@[simp] theorem State.setElem_descAddr : (s.setElem r v).descAddr = s.descAddr := rfl
@[simp] theorem State.setElem_wAddr : (s.setElem r v).wAddr = s.wAddr := rfl
@[simp] theorem State.setElem_mem : (s.setElem r v).mem = s.mem := rfl
@[simp] theorem State.setElem_rstLow : (s.setElem r v).rstLow = s.rstLow := rfl
@[simp] theorem State.setElem_epoch : (s.setElem r v).epoch = s.epoch := rfl
@[simp] theorem State.setElem_draws : (s.setElem r v).draws = s.draws := rfl
@[simp] theorem State.setElem_schedule : (s.setElem r v).schedule = s.schedule := rfl
@[simp] theorem State.setElem_rngScript : (s.setElem r v).rngScript = s.rngScript := rfl
@[simp] theorem State.setElem_hostResp : (s.setElem r v).hostResp = s.hostResp := rfl

end setElem

section advance

variable (s : State)

@[simp] theorem State.advance_params : s.advance.params = s.params := rfl
@[simp] theorem State.advance_e : s.advance.e = s.e := rfl
@[simp] theorem State.advance_pc : s.advance.pc = s.pc + 4 := rfl
@[simp] theorem State.advance_busy : s.advance.busy = s.busy := rfl
@[simp] theorem State.advance_done : s.advance.done = s.done := rfl
@[simp] theorem State.advance_err : s.advance.err = s.err := rfl
@[simp] theorem State.advance_errCode : s.advance.errCode = s.errCode := rfl
@[simp] theorem State.advance_inflight : s.advance.inflight = s.inflight := rfl
@[simp] theorem State.advance_doneIe : s.advance.doneIe = s.doneIe := rfl
@[simp] theorem State.advance_errIe : s.advance.errIe = s.errIe := rfl
@[simp] theorem State.advance_entry : s.advance.entry = s.entry := rfl
@[simp] theorem State.advance_errPc : s.advance.errPc = s.errPc := rfl
@[simp] theorem State.advance_errInfo : s.advance.errInfo = s.errInfo := rfl
@[simp] theorem State.advance_secAddr : s.advance.secAddr = s.secAddr := rfl
@[simp] theorem State.advance_secLen : s.advance.secLen = s.secLen := rfl
@[simp] theorem State.advance_needed : s.advance.needed = s.needed := rfl
@[simp] theorem State.advance_total : s.advance.total = s.total := rfl
@[simp] theorem State.advance_coefAddr : s.advance.coefAddr = s.coefAddr := rfl
@[simp] theorem State.advance_outAddr : s.advance.outAddr = s.outAddr := rfl
@[simp] theorem State.advance_count : s.advance.count = s.count := rfl
@[simp] theorem State.advance_descAddr : s.advance.descAddr = s.descAddr := rfl
@[simp] theorem State.advance_wAddr : s.advance.wAddr = s.wAddr := rfl
@[simp] theorem State.advance_mem : s.advance.mem = s.mem := rfl
@[simp] theorem State.advance_rstLow : s.advance.rstLow = s.rstLow := rfl
@[simp] theorem State.advance_epoch : s.advance.epoch = s.epoch := rfl
@[simp] theorem State.advance_draws : s.advance.draws = s.draws := rfl
@[simp] theorem State.advance_schedule : s.advance.schedule = s.schedule := rfl
@[simp] theorem State.advance_rngScript : s.advance.rngScript = s.rngScript := rfl
@[simp] theorem State.advance_hostResp : s.advance.hostResp = s.hostResp := rfl

end advance

section writeBytes

variable (s : State) (a : Nat) (bs : List Byte)

@[simp] theorem State.writeBytes_params : (s.writeBytes a bs).params = s.params := rfl
@[simp] theorem State.writeBytes_e : (s.writeBytes a bs).e = s.e := rfl
@[simp] theorem State.writeBytes_pc : (s.writeBytes a bs).pc = s.pc := rfl
@[simp] theorem State.writeBytes_busy : (s.writeBytes a bs).busy = s.busy := rfl
@[simp] theorem State.writeBytes_done : (s.writeBytes a bs).done = s.done := rfl
@[simp] theorem State.writeBytes_err : (s.writeBytes a bs).err = s.err := rfl
@[simp] theorem State.writeBytes_errCode : (s.writeBytes a bs).errCode = s.errCode := rfl
@[simp] theorem State.writeBytes_inflight : (s.writeBytes a bs).inflight = s.inflight := rfl
@[simp] theorem State.writeBytes_doneIe : (s.writeBytes a bs).doneIe = s.doneIe := rfl
@[simp] theorem State.writeBytes_errIe : (s.writeBytes a bs).errIe = s.errIe := rfl
@[simp] theorem State.writeBytes_entry : (s.writeBytes a bs).entry = s.entry := rfl
@[simp] theorem State.writeBytes_errPc : (s.writeBytes a bs).errPc = s.errPc := rfl
@[simp] theorem State.writeBytes_errInfo : (s.writeBytes a bs).errInfo = s.errInfo := rfl
@[simp] theorem State.writeBytes_secAddr : (s.writeBytes a bs).secAddr = s.secAddr := rfl
@[simp] theorem State.writeBytes_secLen : (s.writeBytes a bs).secLen = s.secLen := rfl
@[simp] theorem State.writeBytes_needed : (s.writeBytes a bs).needed = s.needed := rfl
@[simp] theorem State.writeBytes_total : (s.writeBytes a bs).total = s.total := rfl
@[simp] theorem State.writeBytes_coefAddr : (s.writeBytes a bs).coefAddr = s.coefAddr := rfl
@[simp] theorem State.writeBytes_outAddr : (s.writeBytes a bs).outAddr = s.outAddr := rfl
@[simp] theorem State.writeBytes_count : (s.writeBytes a bs).count = s.count := rfl
@[simp] theorem State.writeBytes_descAddr : (s.writeBytes a bs).descAddr = s.descAddr := rfl
@[simp] theorem State.writeBytes_wAddr : (s.writeBytes a bs).wAddr = s.wAddr := rfl
@[simp] theorem State.writeBytes_mem : (s.writeBytes a bs).mem = s.mem.writeBytes a bs := rfl
@[simp] theorem State.writeBytes_rstLow : (s.writeBytes a bs).rstLow = s.rstLow := rfl
@[simp] theorem State.writeBytes_epoch : (s.writeBytes a bs).epoch = s.epoch := rfl
@[simp] theorem State.writeBytes_draws : (s.writeBytes a bs).draws = s.draws := rfl
@[simp] theorem State.writeBytes_schedule : (s.writeBytes a bs).schedule = s.schedule := rfl
@[simp] theorem State.writeBytes_rngScript : (s.writeBytes a bs).rngScript = s.rngScript := rfl
@[simp] theorem State.writeBytes_hostResp : (s.writeBytes a bs).hostResp = s.hostResp := rfl

end writeBytes

section takeFault

variable (s : State) (t : Trap)

@[simp] theorem State.takeFault_params : (s.takeFault t).params = s.params := rfl
@[simp] theorem State.takeFault_e : (s.takeFault t).e = s.e := rfl
@[simp] theorem State.takeFault_pc : (s.takeFault t).pc = s.pc := rfl
@[simp] theorem State.takeFault_busy : (s.takeFault t).busy = false := rfl
@[simp] theorem State.takeFault_done : (s.takeFault t).done = s.done := rfl
@[simp] theorem State.takeFault_err : (s.takeFault t).err = true := rfl
@[simp] theorem State.takeFault_errCode : (s.takeFault t).errCode = faultNumber t.code := rfl
@[simp] theorem State.takeFault_inflight : (s.takeFault t).inflight = none := rfl
@[simp] theorem State.takeFault_doneIe : (s.takeFault t).doneIe = s.doneIe := rfl
@[simp] theorem State.takeFault_errIe : (s.takeFault t).errIe = s.errIe := rfl
@[simp] theorem State.takeFault_entry : (s.takeFault t).entry = s.entry := rfl
@[simp] theorem State.takeFault_errPc : (s.takeFault t).errPc = s.pc := rfl
@[simp] theorem State.takeFault_errInfo : (s.takeFault t).errInfo = t.info := rfl
@[simp] theorem State.takeFault_secAddr : (s.takeFault t).secAddr = s.secAddr := rfl
@[simp] theorem State.takeFault_secLen : (s.takeFault t).secLen = s.secLen := rfl
@[simp] theorem State.takeFault_needed : (s.takeFault t).needed = s.needed := rfl
@[simp] theorem State.takeFault_total : (s.takeFault t).total = s.total := rfl
@[simp] theorem State.takeFault_coefAddr : (s.takeFault t).coefAddr = s.coefAddr := rfl
@[simp] theorem State.takeFault_outAddr : (s.takeFault t).outAddr = s.outAddr := rfl
@[simp] theorem State.takeFault_count : (s.takeFault t).count = s.count := rfl
@[simp] theorem State.takeFault_descAddr : (s.takeFault t).descAddr = s.descAddr := rfl
@[simp] theorem State.takeFault_wAddr : (s.takeFault t).wAddr = s.wAddr := rfl
@[simp] theorem State.takeFault_mem : (s.takeFault t).mem = s.mem := rfl
@[simp] theorem State.takeFault_rstLow : (s.takeFault t).rstLow = s.rstLow := rfl
@[simp] theorem State.takeFault_epoch : (s.takeFault t).epoch = s.epoch := rfl
@[simp] theorem State.takeFault_draws : (s.takeFault t).draws = s.draws := rfl
@[simp] theorem State.takeFault_schedule : (s.takeFault t).schedule = s.schedule := rfl
@[simp] theorem State.takeFault_rngScript : (s.takeFault t).rngScript = s.rngScript := rfl
@[simp] theorem State.takeFault_hostResp : (s.takeFault t).hostResp = s.hostResp := rfl

end takeFault

section consumeAnswer

variable (s : State)

@[simp] theorem State.consumeAnswer_params : s.consumeAnswer.params = s.params := rfl
@[simp] theorem State.consumeAnswer_e : s.consumeAnswer.e = s.e := rfl
@[simp] theorem State.consumeAnswer_pc : s.consumeAnswer.pc = s.pc := rfl
@[simp] theorem State.consumeAnswer_busy : s.consumeAnswer.busy = s.busy := rfl
@[simp] theorem State.consumeAnswer_done : s.consumeAnswer.done = s.done := rfl
@[simp] theorem State.consumeAnswer_err : s.consumeAnswer.err = s.err := rfl
@[simp] theorem State.consumeAnswer_errCode : s.consumeAnswer.errCode = s.errCode := rfl
@[simp] theorem State.consumeAnswer_inflight : s.consumeAnswer.inflight = s.inflight := rfl
@[simp] theorem State.consumeAnswer_doneIe : s.consumeAnswer.doneIe = s.doneIe := rfl
@[simp] theorem State.consumeAnswer_errIe : s.consumeAnswer.errIe = s.errIe := rfl
@[simp] theorem State.consumeAnswer_entry : s.consumeAnswer.entry = s.entry := rfl
@[simp] theorem State.consumeAnswer_errPc : s.consumeAnswer.errPc = s.errPc := rfl
@[simp] theorem State.consumeAnswer_errInfo : s.consumeAnswer.errInfo = s.errInfo := rfl
@[simp] theorem State.consumeAnswer_secAddr : s.consumeAnswer.secAddr = s.secAddr := rfl
@[simp] theorem State.consumeAnswer_secLen : s.consumeAnswer.secLen = s.secLen := rfl
@[simp] theorem State.consumeAnswer_needed : s.consumeAnswer.needed = s.needed := rfl
@[simp] theorem State.consumeAnswer_total : s.consumeAnswer.total = s.total := rfl
@[simp] theorem State.consumeAnswer_coefAddr : s.consumeAnswer.coefAddr = s.coefAddr := rfl
@[simp] theorem State.consumeAnswer_outAddr : s.consumeAnswer.outAddr = s.outAddr := rfl
@[simp] theorem State.consumeAnswer_count : s.consumeAnswer.count = s.count := rfl
@[simp] theorem State.consumeAnswer_descAddr : s.consumeAnswer.descAddr = s.descAddr := rfl
@[simp] theorem State.consumeAnswer_wAddr : s.consumeAnswer.wAddr = s.wAddr := rfl
@[simp] theorem State.consumeAnswer_mem : s.consumeAnswer.mem = s.mem := rfl
@[simp] theorem State.consumeAnswer_rstLow : s.consumeAnswer.rstLow = s.rstLow := rfl
@[simp] theorem State.consumeAnswer_epoch : s.consumeAnswer.epoch = s.epoch := rfl
@[simp] theorem State.consumeAnswer_draws : s.consumeAnswer.draws = s.draws + 1 := rfl
@[simp] theorem State.consumeAnswer_schedule : s.consumeAnswer.schedule = s.schedule := rfl
@[simp] theorem State.consumeAnswer_rngScript : s.consumeAnswer.rngScript = s.rngScript.tail := rfl
@[simp] theorem State.consumeAnswer_hostResp : s.consumeAnswer.hostResp = s.hostResp := rfl

end consumeAnswer

section generate

variable (s : State) (j : GenJob)

@[simp] theorem State.generate_params : (s.generate j).params = s.params := rfl
@[simp] theorem State.generate_e : (s.generate j).e = s.e := rfl
@[simp] theorem State.generate_pc : (s.generate j).pc = s.pc := rfl
@[simp] theorem State.generate_busy : (s.generate j).busy = s.busy := rfl
@[simp] theorem State.generate_done : (s.generate j).done = s.done := rfl
@[simp] theorem State.generate_err : (s.generate j).err = s.err := rfl
@[simp] theorem State.generate_errCode : (s.generate j).errCode = s.errCode := rfl
@[simp] theorem State.generate_inflight : (s.generate j).inflight = s.inflight := rfl
@[simp] theorem State.generate_doneIe : (s.generate j).doneIe = s.doneIe := rfl
@[simp] theorem State.generate_errIe : (s.generate j).errIe = s.errIe := rfl
@[simp] theorem State.generate_entry : (s.generate j).entry = s.entry := rfl
@[simp] theorem State.generate_errPc : (s.generate j).errPc = s.errPc := rfl
@[simp] theorem State.generate_errInfo : (s.generate j).errInfo = s.errInfo := rfl
@[simp] theorem State.generate_secAddr : (s.generate j).secAddr = s.secAddr := rfl
@[simp] theorem State.generate_secLen : (s.generate j).secLen = s.secLen := rfl
@[simp] theorem State.generate_needed : (s.generate j).needed = s.needed := rfl
@[simp] theorem State.generate_total : (s.generate j).total = s.total := rfl
@[simp] theorem State.generate_coefAddr : (s.generate j).coefAddr = s.coefAddr := rfl
@[simp] theorem State.generate_outAddr : (s.generate j).outAddr = s.outAddr := rfl
@[simp] theorem State.generate_count : (s.generate j).count = j.total := rfl
@[simp] theorem State.generate_descAddr : (s.generate j).descAddr = s.descAddr := rfl
@[simp] theorem State.generate_wAddr : (s.generate j).wAddr = s.wAddr := rfl
@[simp] theorem State.generate_mem : (s.generate j).mem = (s.mem.writeBytes j.outAddr.toNat (s.shareBytes j)).writeBytes j.descAddr.toNat j.descBytes := rfl
@[simp] theorem State.generate_rstLow : (s.generate j).rstLow = s.rstLow := rfl
@[simp] theorem State.generate_epoch : (s.generate j).epoch = s.epoch := rfl
@[simp] theorem State.generate_draws : (s.generate j).draws = s.draws := rfl
@[simp] theorem State.generate_schedule : (s.generate j).schedule = s.schedule := rfl
@[simp] theorem State.generate_rngScript : (s.generate j).rngScript = s.rngScript := rfl
@[simp] theorem State.generate_hostResp : (s.generate j).hostResp = s.hostResp := rfl

end generate

section writeRecovered

variable (s : State) (out : List Byte) (n : BitVec 16)

@[simp] theorem State.writeRecovered_params : (s.writeRecovered out n).params = s.params := rfl
@[simp] theorem State.writeRecovered_e : (s.writeRecovered out n).e = s.e := rfl
@[simp] theorem State.writeRecovered_pc : (s.writeRecovered out n).pc = s.pc := rfl
@[simp] theorem State.writeRecovered_busy : (s.writeRecovered out n).busy = s.busy := rfl
@[simp] theorem State.writeRecovered_done : (s.writeRecovered out n).done = s.done := rfl
@[simp] theorem State.writeRecovered_err : (s.writeRecovered out n).err = s.err := rfl
@[simp] theorem State.writeRecovered_errCode : (s.writeRecovered out n).errCode = s.errCode := rfl
@[simp] theorem State.writeRecovered_inflight : (s.writeRecovered out n).inflight = s.inflight := rfl
@[simp] theorem State.writeRecovered_doneIe : (s.writeRecovered out n).doneIe = s.doneIe := rfl
@[simp] theorem State.writeRecovered_errIe : (s.writeRecovered out n).errIe = s.errIe := rfl
@[simp] theorem State.writeRecovered_entry : (s.writeRecovered out n).entry = s.entry := rfl
@[simp] theorem State.writeRecovered_errPc : (s.writeRecovered out n).errPc = s.errPc := rfl
@[simp] theorem State.writeRecovered_errInfo : (s.writeRecovered out n).errInfo = s.errInfo := rfl
@[simp] theorem State.writeRecovered_secAddr : (s.writeRecovered out n).secAddr = s.secAddr := rfl
@[simp] theorem State.writeRecovered_secLen : (s.writeRecovered out n).secLen = n.setWidth 32 := rfl
@[simp] theorem State.writeRecovered_needed : (s.writeRecovered out n).needed = s.needed := rfl
@[simp] theorem State.writeRecovered_total : (s.writeRecovered out n).total = s.total := rfl
@[simp] theorem State.writeRecovered_coefAddr : (s.writeRecovered out n).coefAddr = s.coefAddr := rfl
@[simp] theorem State.writeRecovered_outAddr : (s.writeRecovered out n).outAddr = s.outAddr := rfl
@[simp] theorem State.writeRecovered_count : (s.writeRecovered out n).count = s.count := rfl
@[simp] theorem State.writeRecovered_descAddr : (s.writeRecovered out n).descAddr = s.descAddr := rfl
@[simp] theorem State.writeRecovered_wAddr : (s.writeRecovered out n).wAddr = s.wAddr := rfl
@[simp] theorem State.writeRecovered_mem : (s.writeRecovered out n).mem = s.mem.writeBytes s.secAddr.toNat out := rfl
@[simp] theorem State.writeRecovered_rstLow : (s.writeRecovered out n).rstLow = s.rstLow := rfl
@[simp] theorem State.writeRecovered_epoch : (s.writeRecovered out n).epoch = s.epoch := rfl
@[simp] theorem State.writeRecovered_draws : (s.writeRecovered out n).draws = s.draws := rfl
@[simp] theorem State.writeRecovered_schedule : (s.writeRecovered out n).schedule = s.schedule := rfl
@[simp] theorem State.writeRecovered_rngScript : (s.writeRecovered out n).rngScript = s.rngScript := rfl
@[simp] theorem State.writeRecovered_hostResp : (s.writeRecovered out n).hostResp = s.hostResp := rfl

end writeRecovered

section drawRegion

variable (s : State) (r : Region)

@[simp] theorem State.drawRegion_params : (s.drawRegion r).params = s.params := rfl
@[simp] theorem State.drawRegion_e : (s.drawRegion r).e = s.e := rfl
@[simp] theorem State.drawRegion_pc : (s.drawRegion r).pc = s.pc := rfl
@[simp] theorem State.drawRegion_busy : (s.drawRegion r).busy = s.busy := rfl
@[simp] theorem State.drawRegion_done : (s.drawRegion r).done = s.done := rfl
@[simp] theorem State.drawRegion_err : (s.drawRegion r).err = s.err := rfl
@[simp] theorem State.drawRegion_errCode : (s.drawRegion r).errCode = s.errCode := rfl
@[simp] theorem State.drawRegion_inflight : (s.drawRegion r).inflight = s.inflight := rfl
@[simp] theorem State.drawRegion_doneIe : (s.drawRegion r).doneIe = s.doneIe := rfl
@[simp] theorem State.drawRegion_errIe : (s.drawRegion r).errIe = s.errIe := rfl
@[simp] theorem State.drawRegion_entry : (s.drawRegion r).entry = s.entry := rfl
@[simp] theorem State.drawRegion_errPc : (s.drawRegion r).errPc = s.errPc := rfl
@[simp] theorem State.drawRegion_errInfo : (s.drawRegion r).errInfo = s.errInfo := rfl
@[simp] theorem State.drawRegion_secAddr : (s.drawRegion r).secAddr = s.secAddr := rfl
@[simp] theorem State.drawRegion_secLen : (s.drawRegion r).secLen = s.secLen := rfl
@[simp] theorem State.drawRegion_needed : (s.drawRegion r).needed = s.needed := rfl
@[simp] theorem State.drawRegion_total : (s.drawRegion r).total = s.total := rfl
@[simp] theorem State.drawRegion_coefAddr : (s.drawRegion r).coefAddr = s.coefAddr := rfl
@[simp] theorem State.drawRegion_outAddr : (s.drawRegion r).outAddr = s.outAddr := rfl
@[simp] theorem State.drawRegion_count : (s.drawRegion r).count = s.count := rfl
@[simp] theorem State.drawRegion_descAddr : (s.drawRegion r).descAddr = s.descAddr := rfl
@[simp] theorem State.drawRegion_wAddr : (s.drawRegion r).wAddr = s.wAddr := rfl
@[simp] theorem State.drawRegion_rstLow : (s.drawRegion r).rstLow = s.rstLow := rfl
@[simp] theorem State.drawRegion_epoch : (s.drawRegion r).epoch = s.epoch := rfl
@[simp] theorem State.drawRegion_draws : (s.drawRegion r).draws = s.draws := rfl
@[simp] theorem State.drawRegion_schedule : (s.drawRegion r).schedule = s.schedule := rfl
@[simp] theorem State.drawRegion_rngScript : (s.drawRegion r).rngScript = s.rngScript := rfl
@[simp] theorem State.drawRegion_hostResp : (s.drawRegion r).hostResp = s.hostResp := rfl

end drawRegion

section startFault

variable (s : State)

@[simp] theorem State.startFault_params : s.startFault.params = s.params := rfl
@[simp] theorem State.startFault_e : s.startFault.e = s.e := rfl
@[simp] theorem State.startFault_pc : s.startFault.pc = s.entry := rfl
@[simp] theorem State.startFault_busy : s.startFault.busy = s.busy := rfl
@[simp] theorem State.startFault_done : s.startFault.done = false := rfl
@[simp] theorem State.startFault_err : s.startFault.err = true := rfl
@[simp] theorem State.startFault_errCode : s.startFault.errCode = faultNumber .fetchMisaligned := rfl
@[simp] theorem State.startFault_inflight : s.startFault.inflight = s.inflight := rfl
@[simp] theorem State.startFault_doneIe : s.startFault.doneIe = s.doneIe := rfl
@[simp] theorem State.startFault_errIe : s.startFault.errIe = s.errIe := rfl
@[simp] theorem State.startFault_entry : s.startFault.entry = s.entry := rfl
@[simp] theorem State.startFault_errPc : s.startFault.errPc = s.entry := rfl
@[simp] theorem State.startFault_errInfo : s.startFault.errInfo = s.entry := rfl
@[simp] theorem State.startFault_secAddr : s.startFault.secAddr = s.secAddr := rfl
@[simp] theorem State.startFault_secLen : s.startFault.secLen = s.secLen := rfl
@[simp] theorem State.startFault_needed : s.startFault.needed = s.needed := rfl
@[simp] theorem State.startFault_total : s.startFault.total = s.total := rfl
@[simp] theorem State.startFault_coefAddr : s.startFault.coefAddr = s.coefAddr := rfl
@[simp] theorem State.startFault_outAddr : s.startFault.outAddr = s.outAddr := rfl
@[simp] theorem State.startFault_count : s.startFault.count = s.count := rfl
@[simp] theorem State.startFault_descAddr : s.startFault.descAddr = s.descAddr := rfl
@[simp] theorem State.startFault_wAddr : s.startFault.wAddr = s.wAddr := rfl
@[simp] theorem State.startFault_mem : s.startFault.mem = s.mem := rfl
@[simp] theorem State.startFault_rstLow : s.startFault.rstLow = s.rstLow := rfl
@[simp] theorem State.startFault_epoch : s.startFault.epoch = s.epoch := rfl
@[simp] theorem State.startFault_draws : s.startFault.draws = s.draws := rfl
@[simp] theorem State.startFault_schedule : s.startFault.schedule = s.schedule := rfl
@[simp] theorem State.startFault_rngScript : s.startFault.rngScript = s.rngScript := rfl
@[simp] theorem State.startFault_hostResp : s.startFault.hostResp = s.hostResp := rfl

end startFault

section startRun

variable (s : State)

@[simp] theorem State.startRun_params : s.startRun.params = s.params := rfl
@[simp] theorem State.startRun_e : s.startRun.e = s.e := rfl
@[simp] theorem State.startRun_pc : s.startRun.pc = s.entry := rfl
@[simp] theorem State.startRun_busy : s.startRun.busy = true := rfl
@[simp] theorem State.startRun_done : s.startRun.done = false := rfl
@[simp] theorem State.startRun_err : s.startRun.err = false := rfl
@[simp] theorem State.startRun_errCode : s.startRun.errCode = 0 := rfl
@[simp] theorem State.startRun_inflight : s.startRun.inflight = s.inflight := rfl
@[simp] theorem State.startRun_doneIe : s.startRun.doneIe = s.doneIe := rfl
@[simp] theorem State.startRun_errIe : s.startRun.errIe = s.errIe := rfl
@[simp] theorem State.startRun_entry : s.startRun.entry = s.entry := rfl
@[simp] theorem State.startRun_errPc : s.startRun.errPc = s.errPc := rfl
@[simp] theorem State.startRun_errInfo : s.startRun.errInfo = s.errInfo := rfl
@[simp] theorem State.startRun_secAddr : s.startRun.secAddr = s.secAddr := rfl
@[simp] theorem State.startRun_secLen : s.startRun.secLen = s.secLen := rfl
@[simp] theorem State.startRun_needed : s.startRun.needed = s.needed := rfl
@[simp] theorem State.startRun_total : s.startRun.total = s.total := rfl
@[simp] theorem State.startRun_coefAddr : s.startRun.coefAddr = s.coefAddr := rfl
@[simp] theorem State.startRun_outAddr : s.startRun.outAddr = s.outAddr := rfl
@[simp] theorem State.startRun_count : s.startRun.count = s.count := rfl
@[simp] theorem State.startRun_descAddr : s.startRun.descAddr = s.descAddr := rfl
@[simp] theorem State.startRun_wAddr : s.startRun.wAddr = s.wAddr := rfl
@[simp] theorem State.startRun_mem : s.startRun.mem = s.mem := rfl
@[simp] theorem State.startRun_rstLow : s.startRun.rstLow = s.rstLow := rfl
@[simp] theorem State.startRun_epoch : s.startRun.epoch = s.epoch := rfl
@[simp] theorem State.startRun_draws : s.startRun.draws = s.draws := rfl
@[simp] theorem State.startRun_schedule : s.startRun.schedule = s.schedule := rfl
@[simp] theorem State.startRun_rngScript : s.startRun.rngScript = s.rngScript := rfl
@[simp] theorem State.startRun_hostResp : s.startRun.hostResp = s.hostResp := rfl

end startRun

section respond

variable (s : State) (r : HostResp)

@[simp] theorem State.respond_params : (s.respond r).params = s.params := rfl
@[simp] theorem State.respond_e : (s.respond r).e = s.e := rfl
@[simp] theorem State.respond_pc : (s.respond r).pc = s.pc := rfl
@[simp] theorem State.respond_busy : (s.respond r).busy = s.busy := rfl
@[simp] theorem State.respond_done : (s.respond r).done = s.done := rfl
@[simp] theorem State.respond_err : (s.respond r).err = s.err := rfl
@[simp] theorem State.respond_errCode : (s.respond r).errCode = s.errCode := rfl
@[simp] theorem State.respond_inflight : (s.respond r).inflight = s.inflight := rfl
@[simp] theorem State.respond_doneIe : (s.respond r).doneIe = s.doneIe := rfl
@[simp] theorem State.respond_errIe : (s.respond r).errIe = s.errIe := rfl
@[simp] theorem State.respond_entry : (s.respond r).entry = s.entry := rfl
@[simp] theorem State.respond_errPc : (s.respond r).errPc = s.errPc := rfl
@[simp] theorem State.respond_errInfo : (s.respond r).errInfo = s.errInfo := rfl
@[simp] theorem State.respond_secAddr : (s.respond r).secAddr = s.secAddr := rfl
@[simp] theorem State.respond_secLen : (s.respond r).secLen = s.secLen := rfl
@[simp] theorem State.respond_needed : (s.respond r).needed = s.needed := rfl
@[simp] theorem State.respond_total : (s.respond r).total = s.total := rfl
@[simp] theorem State.respond_coefAddr : (s.respond r).coefAddr = s.coefAddr := rfl
@[simp] theorem State.respond_outAddr : (s.respond r).outAddr = s.outAddr := rfl
@[simp] theorem State.respond_count : (s.respond r).count = s.count := rfl
@[simp] theorem State.respond_descAddr : (s.respond r).descAddr = s.descAddr := rfl
@[simp] theorem State.respond_wAddr : (s.respond r).wAddr = s.wAddr := rfl
@[simp] theorem State.respond_mem : (s.respond r).mem = s.mem := rfl
@[simp] theorem State.respond_rstLow : (s.respond r).rstLow = s.rstLow := rfl
@[simp] theorem State.respond_epoch : (s.respond r).epoch = s.epoch := rfl
@[simp] theorem State.respond_draws : (s.respond r).draws = s.draws := rfl
@[simp] theorem State.respond_schedule : (s.respond r).schedule = s.schedule := rfl
@[simp] theorem State.respond_rngScript : (s.respond r).rngScript = s.rngScript := rfl
@[simp] theorem State.respond_hostResp : (s.respond r).hostResp = some r := rfl
@[simp] theorem State.respond_readByte (a : Nat) : (s.respond r).readByte a = s.readByte a := rfl
@[simp] theorem State.respond_read16 (a : Nat) : (s.respond r).read16 a = s.read16 a := rfl
@[simp] theorem State.respond_read32 (a : Nat) : (s.respond r).read32 a = s.read32 a := rfl
@[simp] theorem State.respond_inRange (a k : Nat) : (s.respond r).inRange a k = s.inRange a k := rfl
@[simp] theorem State.respond_elem (q : Reg) : (s.respond r).elem q = s.elem q := rfl
@[simp] theorem State.respond_fetch : (s.respond r).fetch = s.fetch := rfl

end respond

section setSchedule

variable (s : State) (events : List Event)

@[simp] theorem State.setSchedule_params : (s.setSchedule events).params = s.params := rfl
@[simp] theorem State.setSchedule_e : (s.setSchedule events).e = s.e := rfl
@[simp] theorem State.setSchedule_pc : (s.setSchedule events).pc = s.pc := rfl
@[simp] theorem State.setSchedule_busy : (s.setSchedule events).busy = s.busy := rfl
@[simp] theorem State.setSchedule_done : (s.setSchedule events).done = s.done := rfl
@[simp] theorem State.setSchedule_err : (s.setSchedule events).err = s.err := rfl
@[simp] theorem State.setSchedule_errCode : (s.setSchedule events).errCode = s.errCode := rfl
@[simp] theorem State.setSchedule_inflight : (s.setSchedule events).inflight = s.inflight := rfl
@[simp] theorem State.setSchedule_doneIe : (s.setSchedule events).doneIe = s.doneIe := rfl
@[simp] theorem State.setSchedule_errIe : (s.setSchedule events).errIe = s.errIe := rfl
@[simp] theorem State.setSchedule_entry : (s.setSchedule events).entry = s.entry := rfl
@[simp] theorem State.setSchedule_errPc : (s.setSchedule events).errPc = s.errPc := rfl
@[simp] theorem State.setSchedule_errInfo : (s.setSchedule events).errInfo = s.errInfo := rfl
@[simp] theorem State.setSchedule_secAddr : (s.setSchedule events).secAddr = s.secAddr := rfl
@[simp] theorem State.setSchedule_secLen : (s.setSchedule events).secLen = s.secLen := rfl
@[simp] theorem State.setSchedule_needed : (s.setSchedule events).needed = s.needed := rfl
@[simp] theorem State.setSchedule_total : (s.setSchedule events).total = s.total := rfl
@[simp] theorem State.setSchedule_coefAddr : (s.setSchedule events).coefAddr = s.coefAddr := rfl
@[simp] theorem State.setSchedule_outAddr : (s.setSchedule events).outAddr = s.outAddr := rfl
@[simp] theorem State.setSchedule_count : (s.setSchedule events).count = s.count := rfl
@[simp] theorem State.setSchedule_descAddr : (s.setSchedule events).descAddr = s.descAddr := rfl
@[simp] theorem State.setSchedule_wAddr : (s.setSchedule events).wAddr = s.wAddr := rfl
@[simp] theorem State.setSchedule_mem : (s.setSchedule events).mem = s.mem := rfl
@[simp] theorem State.setSchedule_rstLow : (s.setSchedule events).rstLow = s.rstLow := rfl
@[simp] theorem State.setSchedule_epoch : (s.setSchedule events).epoch = s.epoch := rfl
@[simp] theorem State.setSchedule_draws : (s.setSchedule events).draws = s.draws := rfl
@[simp] theorem State.setSchedule_schedule : (s.setSchedule events).schedule = events := rfl
@[simp] theorem State.setSchedule_rngScript : (s.setSchedule events).rngScript = s.rngScript := rfl
@[simp] theorem State.setSchedule_hostResp : (s.setSchedule events).hostResp = s.hostResp := rfl
@[simp] theorem State.setSchedule_readByte (a : Nat) : (s.setSchedule events).readByte a = s.readByte a := rfl
@[simp] theorem State.setSchedule_read16 (a : Nat) : (s.setSchedule events).read16 a = s.read16 a := rfl
@[simp] theorem State.setSchedule_read32 (a : Nat) : (s.setSchedule events).read32 a = s.read32 a := rfl
@[simp] theorem State.setSchedule_inRange (a k : Nat) : (s.setSchedule events).inRange a k = s.inRange a k := rfl
@[simp] theorem State.setSchedule_elem (q : Reg) : (s.setSchedule events).elem q = s.elem q := rfl
@[simp] theorem State.setSchedule_fetch : (s.setSchedule events).fetch = s.fetch := rfl

end setSchedule

section setParam

variable (s : State) (n : Nat) (v : Word)

@[simp] theorem State.setParam_params : (s.setParam n v).params = s.params := by unfold State.setParam; split <;> rfl
@[simp] theorem State.setParam_e : (s.setParam n v).e = s.e := by unfold State.setParam; split <;> rfl
@[simp] theorem State.setParam_pc : (s.setParam n v).pc = s.pc := by unfold State.setParam; split <;> rfl
@[simp] theorem State.setParam_busy : (s.setParam n v).busy = s.busy := by unfold State.setParam; split <;> rfl
@[simp] theorem State.setParam_done : (s.setParam n v).done = s.done := by unfold State.setParam; split <;> rfl
@[simp] theorem State.setParam_err : (s.setParam n v).err = s.err := by unfold State.setParam; split <;> rfl
@[simp] theorem State.setParam_errCode : (s.setParam n v).errCode = s.errCode := by unfold State.setParam; split <;> rfl
@[simp] theorem State.setParam_inflight : (s.setParam n v).inflight = s.inflight := by unfold State.setParam; split <;> rfl
@[simp] theorem State.setParam_doneIe : (s.setParam n v).doneIe = s.doneIe := by unfold State.setParam; split <;> rfl
@[simp] theorem State.setParam_errIe : (s.setParam n v).errIe = s.errIe := by unfold State.setParam; split <;> rfl
@[simp] theorem State.setParam_entry : (s.setParam n v).entry = s.entry := by unfold State.setParam; split <;> rfl
@[simp] theorem State.setParam_errPc : (s.setParam n v).errPc = s.errPc := by unfold State.setParam; split <;> rfl
@[simp] theorem State.setParam_errInfo : (s.setParam n v).errInfo = s.errInfo := by unfold State.setParam; split <;> rfl
@[simp] theorem State.setParam_mem : (s.setParam n v).mem = s.mem := by unfold State.setParam; split <;> rfl
@[simp] theorem State.setParam_rstLow : (s.setParam n v).rstLow = s.rstLow := by unfold State.setParam; split <;> rfl
@[simp] theorem State.setParam_epoch : (s.setParam n v).epoch = s.epoch := by unfold State.setParam; split <;> rfl
@[simp] theorem State.setParam_draws : (s.setParam n v).draws = s.draws := by unfold State.setParam; split <;> rfl
@[simp] theorem State.setParam_schedule : (s.setParam n v).schedule = s.schedule := by unfold State.setParam; split <;> rfl
@[simp] theorem State.setParam_rngScript : (s.setParam n v).rngScript = s.rngScript := by unfold State.setParam; split <;> rfl
@[simp] theorem State.setParam_hostResp : (s.setParam n v).hostResp = s.hostResp := by unfold State.setParam; split <;> rfl

end setParam

section resetRegisters

variable (s : State)

@[simp] theorem State.resetRegisters_params : s.resetRegisters.params = s.params := rfl
@[simp] theorem State.resetRegisters_e : s.resetRegisters.e = Vector.replicate 16 0 := rfl
@[simp] theorem State.resetRegisters_pc : s.resetRegisters.pc = 0 := rfl
@[simp] theorem State.resetRegisters_busy : s.resetRegisters.busy = false := rfl
@[simp] theorem State.resetRegisters_done : s.resetRegisters.done = false := rfl
@[simp] theorem State.resetRegisters_err : s.resetRegisters.err = false := rfl
@[simp] theorem State.resetRegisters_errCode : s.resetRegisters.errCode = 0 := rfl
@[simp] theorem State.resetRegisters_inflight : s.resetRegisters.inflight = none := rfl
@[simp] theorem State.resetRegisters_doneIe : s.resetRegisters.doneIe = false := rfl
@[simp] theorem State.resetRegisters_errIe : s.resetRegisters.errIe = false := rfl
@[simp] theorem State.resetRegisters_entry : s.resetRegisters.entry = 0 := rfl
@[simp] theorem State.resetRegisters_errPc : s.resetRegisters.errPc = 0 := rfl
@[simp] theorem State.resetRegisters_errInfo : s.resetRegisters.errInfo = 0 := rfl
@[simp] theorem State.resetRegisters_secAddr : s.resetRegisters.secAddr = 0 := rfl
@[simp] theorem State.resetRegisters_secLen : s.resetRegisters.secLen = 0 := rfl
@[simp] theorem State.resetRegisters_needed : s.resetRegisters.needed = 0 := rfl
@[simp] theorem State.resetRegisters_total : s.resetRegisters.total = 0 := rfl
@[simp] theorem State.resetRegisters_coefAddr : s.resetRegisters.coefAddr = 0 := rfl
@[simp] theorem State.resetRegisters_outAddr : s.resetRegisters.outAddr = 0 := rfl
@[simp] theorem State.resetRegisters_count : s.resetRegisters.count = 0 := rfl
@[simp] theorem State.resetRegisters_descAddr : s.resetRegisters.descAddr = 0 := rfl
@[simp] theorem State.resetRegisters_wAddr : s.resetRegisters.wAddr = 0 := rfl
@[simp] theorem State.resetRegisters_mem : s.resetRegisters.mem = s.mem := rfl
@[simp] theorem State.resetRegisters_rstLow : s.resetRegisters.rstLow = s.rstLow := rfl
@[simp] theorem State.resetRegisters_epoch : s.resetRegisters.epoch = s.epoch := rfl
@[simp] theorem State.resetRegisters_draws : s.resetRegisters.draws = s.draws := rfl
@[simp] theorem State.resetRegisters_schedule : s.resetRegisters.schedule = s.schedule := rfl
@[simp] theorem State.resetRegisters_rngScript : s.resetRegisters.rngScript = s.rngScript := rfl
@[simp] theorem State.resetRegisters_hostResp : s.resetRegisters.hostResp = s.hostResp := rfl

end resetRegisters

end Sys2Proof.Machine
end

