-- ==== Sys2Proof/Laws/Ops.lean ====
section
/-! SUPPORT. What the shared operations can do: element registers, CSRs, ranges, overlaps, checks, taking a fault and START. -/

namespace Sys2Proof.Machine

/-! ### Element registers -/

@[simp] theorem State.elem_setElem_self (s : State) (r : Reg) (v : Byte) : (s.setElem r v).elem r = v := by
  simp [elem, setElem]

theorem State.elem_setElem_of_ne (s : State) {r q : Reg} (v : Byte) (h : q ≠ r) :
    (s.setElem r v).elem q = s.elem q := by
  have : r.val ≠ q.val := fun hv => h (Fin.ext hv.symm)
  simp [elem, setElem, this]

/-- An element register reads as before in any state with the same register file. -/
theorem State.elem_congr {s t : State} (h : t.e = s.e) (r : Reg) : t.elem r = s.elem r := by
  simp only [elem, h]

/-! ### Parameter CSRs -/

theorem State.csrRead_setParam_self (s : State) {n : Nat} (v : Word) (h : 8 ≤ n ∧ n ≤ 16) :
    (s.setParam n v).csrRead n = v := by
  obtain ⟨h1, h2⟩ := h
  interval_cases n <;> rfl

theorem State.csrRead_setParam_of_ne (s : State) {n k : Nat} (v : Word) (h : 8 ≤ n ∧ n ≤ 16) (hk : 8 ≤ k ∧ k ≤ 16)
    (hne : k ≠ n) : (s.setParam n v).csrRead k = s.csrRead k := by
  obtain ⟨h1, h2⟩ := h
  obtain ⟨h3, h4⟩ := hk
  interval_cases n <;> interval_cases k <;> first | rfl | exact absurd rfl hne

/-! ### Parameters -/

/-- LMEM_BYTES is one of the legal sizes (R7). -/
theorem lmemBytes_bounds (p : Config.Params) : 4096 ≤ p.lmemBytes ∧ p.lmemBytes ≤ 4194304 := by
  have h : ∀ k : Fin 11, 4096 ≤ 2 ^ (12 + k.val) ∧ 2 ^ (12 + k.val) ≤ 4194304 := by decide
  exact h p.lmemExp

/-- LMEM_BYTES is a multiple of 4096 (R7). -/
theorem lmemBytes_mod (p : Config.Params) : p.lmemBytes % 4096 = 0 := by
  have h : ∀ k : Fin 11, 2 ^ (12 + k.val) % 4096 = 0 := by decide
  exact h p.lmemExp

/-! ### Ranges and overlaps -/

@[simp] theorem inRange_iff (size a n : Nat) : inRange size a n = true ↔ a + n ≤ size := by simp [inRange]

@[simp] theorem State.inRange_iff (s : State) (a n : Nat) : s.inRange a n = true ↔ a + n ≤ s.params.lmemBytes := by
  simp [State.inRange]

@[simp] theorem Region.has_iff (r : Region) (a : Nat) : r.has a = true ↔ r.base ≤ a ∧ a < r.base + r.len := by
  simp [Region.has]

theorem Region.has_eq_false_iff (r : Region) (a : Nat) : r.has a = false ↔ a < r.base ∨ r.base + r.len ≤ a := by
  rw [← Bool.not_eq_true, has_iff]; omega

/-- Bytes of a region written, an address outside it reads as before. -/
theorem State.readByte_writeBytes_region (s : State) {r : Region} {bs : List Byte} {a : Nat} (hlen : bs.length = r.len)
    (h : r.has a = false) : (s.writeBytes r.base bs).readByte a = s.readByte a :=
  s.readByte_writeBytes_outside bs (by rw [Region.has_eq_false_iff] at h; omega)

/-- Two regions do not overlap exactly when one is empty or they are apart. -/
theorem overlap_eq_false_iff (p q : Region) :
    overlap p q = false ↔ p.len = 0 ∨ q.len = 0 ∨ q.base + q.len ≤ p.base ∨ p.base + p.len ≤ q.base := by
  rw [← Bool.not_eq_true]
  simp only [overlap, Bool.and_eq_true, decide_eq_true_eq]
  omega

/-- No byte lies in two regions that do not overlap. -/
theorem not_has_of_overlap_eq_false {p q : Region} (h : overlap p q = false) {a : Nat} (ha : p.has a = true) :
    q.has a = false := by
  rw [overlap_eq_false_iff] at h
  rw [Region.has_iff] at ha
  rw [Region.has_eq_false_iff]
  omega

theorem rangeTrap_eq_none_iff (size : Nat) (rs : List Region) :
    rangeTrap size rs = none ↔ ∀ r ∈ rs, r.base + r.len ≤ size := by
  simp [rangeTrap, List.findSome?_eq_none_iff]

theorem overlapTrap_eq_none_iff (ps : List (Region × Region)) :
    overlapTrap ps = none ↔ ∀ pq ∈ ps, overlap pq.1 pq.2 = false := by
  simp [overlapTrap, List.findSome?_eq_none_iff]

/-- A failed range check is an AddressRange at the base of the first region that is out of range. -/
theorem rangeTrap_eq_some {size : Nat} {rs : List Region} {t : Trap} (h : rangeTrap size rs = some t) :
    ∃ pre r post, rs = pre ++ r :: post ∧ (∀ q ∈ pre, q.base + q.len ≤ size) ∧ ¬ r.base + r.len ≤ size ∧
      t = ⟨.addressRange, BitVec.ofNat 32 r.base⟩ := by
  unfold rangeTrap at h
  rw [List.findSome?_eq_some_iff] at h
  obtain ⟨pre, r, post, rfl, hr, hpre⟩ := h
  by_cases hin : inRange size r.base r.len = true
  · simp [hin] at hr
  · refine ⟨pre, r, post, rfl, fun q hq => ?_, by simpa using hin, by simpa [hin] using hr.symm⟩
    simpa using hpre q hq

/-- A failed overlap check is a BufferOverlap with info 0. -/
theorem overlapTrap_eq_some {ps : List (Region × Region)} {t : Trap} (h : overlapTrap ps = some t) :
    t = ⟨.bufferOverlap, 0⟩ ∧ ∃ pq ∈ ps, overlap pq.1 pq.2 = true := by
  unfold overlapTrap at h
  obtain ⟨pq, hm, hpq⟩ := List.exists_of_findSome?_eq_some h
  by_cases ho : overlap pq.1 pq.2 = true
  · exact ⟨by simpa [ho] using hpq.symm, pq, hm, ho⟩
  · simp [ho] at hpq

/-- The checks of a generation all pass. -/
theorem GenJob.evalTrap_eq_none_iff (j : GenJob) (size : Nat) :
    j.evalTrap size = none ↔ j.paramTrap = none ∧ j.rangeTrap size = none ∧ overlapTrap j.evalPairs = none := by
  simp [evalTrap, Option.or_eq_none_iff, and_assoc]

theorem GenJob.splitTrap_eq_none_iff (j : GenJob) (size : Nat) :
    j.splitTrap size = none ↔ j.paramTrap = none ∧ j.rangeTrap size = none ∧ overlapTrap j.splitPairs = none := by
  simp [splitTrap, Option.or_eq_none_iff, and_assoc]

theorem GenJob.paramTrap_eq_none_iff (j : GenJob) :
    j.paramTrap = none ↔ (1 ≤ j.secLen.toNat ∧ j.secLen.toNat ≤ 255) ∧
      (2 ≤ j.needed.toNat ∧ j.needed.toNat ≤ j.total.toNat) ∧ j.total.toNat ≤ 255 := by
  unfold paramTrap
  split
  · simp; omega
  · split
    · simp; omega
    · split
      · simp; omega
      · simp; omega

/-! ### The regions of the macro commands (R183, R213) -/

@[simp] theorem GenJob.secretRegion_base (j : GenJob) : j.secretRegion.base = j.secAddr.toNat := rfl
@[simp] theorem GenJob.secretRegion_len (j : GenJob) : j.secretRegion.len = j.secLen.toNat := rfl
@[simp] theorem GenJob.coefRegion_base (j : GenJob) : j.coefRegion.base = j.coefAddr.toNat := rfl
@[simp] theorem GenJob.coefRegion_len (j : GenJob) : j.coefRegion.len = j.coefBytes := rfl
@[simp] theorem GenJob.outRegion_base (j : GenJob) : j.outRegion.base = j.outAddr.toNat := rfl
@[simp] theorem GenJob.outRegion_len (j : GenJob) : j.outRegion.len = j.total.toNat * j.secLen.toNat := rfl
@[simp] theorem GenJob.descRegion_base (j : GenJob) : j.descRegion.base = j.descAddr.toNat := rfl
@[simp] theorem GenJob.descRegion_len (j : GenJob) : j.descRegion.len = 8 * j.total.toNat := rfl
@[simp] theorem State.tableRegion_base (s : State) : s.tableRegion.base = s.descAddr.toNat := rfl
@[simp] theorem State.tableRegion_len (s : State) : s.tableRegion.len = 8 * s.count.toNat := rfl
@[simp] theorem State.weightRegion_base (s : State) : s.weightRegion.base = s.wAddr.toNat := rfl
@[simp] theorem State.weightRegion_len (s : State) : s.weightRegion.len = s.count.toNat := rfl
@[simp] theorem State.recoveredRegion_base (s : State) : s.recoveredRegion.base = s.secAddr.toNat := rfl
@[simp] theorem State.recoveredRegion_len (s : State) : s.recoveredRegion.len = s.shareLen.toNat := rfl

/-! ### The bytes a macro command writes -/

@[simp] theorem bytesOfWord_length (w : Word) : (bytesOfWord w).length = 4 := rfl

@[simp] theorem State.readBytes_length (s : State) (a n : Nat) : (s.readBytes a n).length = n := by simp [readBytes]

theorem flatMap_length_const {α β : Type} (l : List α) (f : α → List β) (n : Nat) (h : ∀ x ∈ l, (f x).length = n) :
    (l.flatMap f).length = l.length * n := by
  induction l with
  | nil => simp
  | cons x l ih =>
    rw [List.flatMap_cons, List.length_append, h x (by simp), ih fun y hy => h y (by simp [hy]), List.length_cons]
    ring

/-- The bytes of a list of equal blocks: block i holds positions i*n to i*n + n - 1. -/
theorem flatMap_getElem?_const {α β : Type} (l : List α) (f : α → List β) (n : Nat) (h : ∀ x ∈ l, (f x).length = n)
    (i j : Nat) (hi : i < l.length) (hj : j < n) : (l.flatMap f)[i * n + j]? = (f l[i])[j]? := by
  induction l generalizing i with
  | nil => simp at hi
  | cons x l ih =>
    have hx := h x (by simp)
    rw [List.flatMap_cons]
    cases i with
    | zero => rw [List.getElem?_append_left (by omega)]; simp
    | succ i =>
      rw [List.getElem?_append_right (by rw [hx, Nat.succ_mul]; omega), hx,
        show (i + 1) * n + j - n = i * n + j by rw [Nat.succ_mul]; omega]
      simpa using ih (fun y hy => h y (by simp [hy])) i (by simpa using hi)

@[simp] theorem State.shareBytes_length (s : State) (j : GenJob) :
    (s.shareBytes j).length = j.total.toNat * j.secLen.toNat := by
  unfold shareBytes
  rw [flatMap_length_const _ _ j.secLen.toNat (by simp), List.length_range]

@[simp] theorem GenJob.descriptor_length (j : GenJob) (i : Nat) : (j.descriptor i).length = 8 := by
  simp [descriptor]

@[simp] theorem GenJob.descBytes_length (j : GenJob) : j.descBytes.length = 8 * j.total.toNat := by
  unfold descBytes
  rw [flatMap_length_const _ _ 8 (by simp), List.length_range, Nat.mul_comm]

@[simp] theorem lagrangeWeights_length (xs : List Byte) : (lagrangeWeights xs).length = xs.length := by
  simp [lagrangeWeights]

@[simp] theorem State.shareSet_length (s : State) : s.shareSet.length = s.count.toNat := by simp [shareSet]

@[simp] theorem State.weights_length (s : State) : s.weights.length = s.count.toNat := by simp [weights, xCoords]

@[simp] theorem State.recovered_length (s : State) (ws : List Byte) : (s.recovered ws).length = s.shareLen.toNat := by
  simp [recovered]

/-! ### START -/

/-- All that START can do (R262). -/
theorem State.start_cases (s : State) :
    (s.busy = true ∧ s.start = s) ∨
    (s.busy = false ∧ s.entry.extractLsb' 0 2 ≠ 0 ∧ s.start = s.startFault) ∨
    (s.busy = false ∧ s.entry.extractLsb' 0 2 = 0 ∧ s.start = s.startRun) := by
  cases hb : s.busy
  · by_cases he : s.entry.extractLsb' 0 2 = 0#2 <;> simp [start, hb, he]
  · simp [start, hb]

end Sys2Proof.Machine
end

