-- ==== Sys2Proof/Laws/Turn.lean ====
section
/-! SUPPORT. What a turn can do, said once: the fetch, the two steps of SPLIT, the record checks, a host access, and the
events of the schedule. -/

namespace Sys2Proof.Machine

/-! ### The fetch and the engine's turn -/

/-- All that a fetch can give (R130). -/
theorem State.fetch_cases (s : State) :
    (s.inRange s.pc.toNat 4 = true ∧ ∃ i, decodeWord (s.read32 s.pc.toNat) = .ok i ∧ s.fetch = .ok i) ∨
    (s.inRange s.pc.toNat 4 = true ∧ (∃ e, decodeWord (s.read32 s.pc.toNat) = .error e) ∧
      s.fetch = .error ⟨.illegalCommand, s.read32 s.pc.toNat⟩) ∨
    (s.inRange s.pc.toNat 4 = false ∧ s.fetch = .error ⟨.fetchRange, s.pc⟩) := by
  unfold fetch
  cases h : s.inRange s.pc.toNat 4 with
  | false => exact .inr (.inr ⟨rfl, by simp⟩)
  | true =>
    cases hd : decodeWord (s.read32 s.pc.toNat) with
    | ok i => exact .inl ⟨rfl, i, rfl, by simp⟩
    | error e => exact .inr (.inl ⟨rfl, ⟨e, rfl⟩, by simp⟩)

/-- All that the engine's turn can do: stand still, go on with a SPLIT in flight, run the command it fetches, or take the
fault of its fetch. -/
theorem engineTurn_cases (s : State) :
    ((s.rstLow = true ∨ s.busy = false) ∧ engineTurn s = .next s) ∨
    (s.rstLow = false ∧ s.busy = true ∧ s.inflight.isSome = true ∧ engineTurn s = exec .split s) ∨
    (s.rstLow = false ∧ s.busy = true ∧ s.inflight = none ∧ ∃ i, s.fetch = .ok i ∧ engineTurn s = exec i s) ∨
    (s.rstLow = false ∧ s.busy = true ∧ s.inflight = none ∧
      ∃ t, s.fetch = .error t ∧ engineTurn s = .next (s.takeFault t)) := by
  unfold engineTurn
  cases hr : s.rstLow <;> cases hb : s.busy <;> cases hi : s.inflight <;> cases hf : s.fetch <;> simp

theorem step_of_nil {s : State} (h : s.schedule = []) : step s = engineTurn s := by simp [step, h]

theorem step_of_cons {s : State} {ev : Event} {rest : List Event} (h : s.schedule = ev :: rest) :
    step s = handleEvent ev (s.setSchedule rest) := by simp [step, h]

@[simp] theorem State.setSchedule_setSchedule (s : State) (a b : List Event) :
    (s.setSchedule a).setSchedule b = s.setSchedule b := rfl

/-! ### The checks, and the two steps of SPLIT -/

/-- The record checks all pass exactly when each record passes its own. -/
theorem recordTrap_eq_none_iff (xc lc : Bool) (len0 : BitVec 16) (ds : List Desc) (i : Nat) (seen : List (BitVec 16)) :
    recordTrap xc lc len0 i seen ds = none ↔
      (xc = true → (∀ d ∈ ds, 1 ≤ d.x.toNat ∧ d.x.toNat ≤ 255 ∧ d.x ∉ seen) ∧ (ds.map Desc.x).Nodup) ∧
      (lc = true → ∀ d ∈ ds, d.len.toNat ≠ 0 ∧ d.len = len0) := by
  induction ds generalizing i seen with
  | nil => simp [recordTrap]
  | cons d ds ih =>
    simp only [recordTrap]
    by_cases h1 : xc = true ∧ (d.x.toNat < 1 ∨ 255 < d.x.toNat)
    · rw [if_pos h1]
      refine iff_of_false (by simp) fun h => ?_
      have := (h.1 h1.1).1 d (by simp)
      omega
    · rw [if_neg h1]
      by_cases h2 : xc = true ∧ d.x ∈ seen
      · rw [if_pos h2]
        exact iff_of_false (by simp) fun h => ((h.1 h2.1).1 d (by simp)).2.2 h2.2
      · rw [if_neg h2]
        by_cases h3 : lc = true ∧ (d.len.toNat = 0 ∨ d.len ≠ len0)
        · rw [if_pos h3]
          refine iff_of_false (by simp) fun h => ?_
          have := h.2 h3.1 d (by simp)
          exact h3.2.elim this.1 fun hne => hne this.2
        · rw [if_neg h3, ih]
          refine and_congr (imp_congr_right fun hx => ?_) (imp_congr_right fun hl => ?_)
          · simp only [hx, true_and] at h1 h2
            simp only [List.mem_cons, forall_eq_or_imp, not_or, List.map_cons, List.nodup_cons, List.mem_map, not_exists,
              not_and]
            constructor
            · rintro ⟨h, hn⟩
              exact ⟨⟨⟨by omega, by omega, h2⟩, fun e he => ⟨(h e he).1, (h e he).2.1, (h e he).2.2.2⟩⟩,
                fun e he => (h e he).2.2.1, hn⟩
            · rintro ⟨⟨-, h⟩, hd, hn⟩
              exact ⟨fun e he => ⟨(h e he).1, (h e he).2.1, hd e he, (h e he).2.2⟩, hn⟩
          · simp only [hl, true_and] at h3
            simp only [List.mem_cons, forall_eq_or_imp]
            exact ⟨fun h => ⟨⟨fun h0 => h3 (.inl h0), not_not.1 fun h0 => h3 (.inr h0)⟩, h⟩, fun h => h.2⟩

/-- The share set passes its validation. -/
theorem State.shareSetTrap_eq_none_iff (s : State) (xc lc : Bool) :
    s.shareSetTrap xc lc = none ↔ 2 ≤ s.count.toNat ∧ s.descAddr.toNat + 8 * s.count.toNat ≤ s.params.lmemBytes ∧
      recordTrap xc lc s.shareLen 0 [] s.shareSet = none := by
  unfold shareSetTrap
  split
  · simp; omega
  · split
    · next h2 => rw [State.inRange_iff] at h2; simp [h2]; omega
    · next h2 => rw [State.inRange_iff] at h2; simp [h2]

/-- All that SPLIT's first step can do (R191). -/
theorem State.splitRequest_cases (s : State) :
    (∃ t, s.genJob.splitTrap s.params.lmemBytes = some t ∧ s.splitRequest = s.takeFault t) ∨
    (s.genJob.splitTrap s.params.lmemBytes = none ∧ s.splitRequest = { s with inflight := some s.genJob }) := by
  unfold splitRequest
  cases s.genJob.splitTrap s.params.lmemBytes with
  | none => exact .inr ⟨rfl, rfl⟩
  | some t => exact .inl ⟨t, rfl, rfl⟩

/-- All that SPLIT's step at the RNG can do (R188, R264; log 3). -/
theorem State.splitAnswer_cases (s : State) (j : GenJob) :
    (s.rngAnswer = .unavailable ∧
      s.splitAnswer j = s.consumeAnswer.takeFault ⟨.randomUnavailable, BitVec.ofNat 32 j.coefBytes⟩) ∨
    (∃ r, s.rngAnswer = .bytes r ∧ r.length = j.coefBytes ∧ s.splitAnswer j =
      ({ s.consumeAnswer.writeBytes j.coefAddr.toNat r with inflight := none }.generate j).advance) ∨
    (∃ r, s.rngAnswer = .bytes r ∧ r.length ≠ j.coefBytes ∧ s.splitAnswer j = s.consumeAnswer) := by
  unfold splitAnswer
  cases s.rngAnswer with
  | unavailable => exact .inl ⟨rfl, rfl⟩
  | bytes r =>
    by_cases h : r.length = j.coefBytes
    · exact .inr (.inl ⟨r, rfl, h, by simp [h]⟩)
    · exact .inr (.inr ⟨r, rfl, h, by simp [h]⟩)

/-! ### The host -/

/-- A system address in the window has its offset (R77). -/
theorem State.windowOffset_add (s : State) {off : Nat} (h : off < 0x800000) :
    s.windowOffset (s.params.blockBase + off) = some off := by
  unfold windowOffset
  rw [if_pos (by omega)]
  simp

theorem State.hostAccess_read (s : State) {off : Nat} (w : HostWidth) (h : off < 0x800000) :
    s.hostAccess (.read (s.params.blockBase + off) w) = s.respond (s.hostRead off w) := by
  simp [hostAccess, s.windowOffset_add h]

theorem State.hostAccess_write (s : State) {off : Nat} (w : HostWidth) (data : Word) (h : off < 0x800000) :
    s.hostAccess (.write (s.params.blockBase + off) w data) =
      match s.hostWrite off w data with
      | some s' => s'.respond ⟨true, 0⟩
      | none => s.respond errorResp := by
  cases hw : s.hostWrite off w data <;> simp [hostAccess, s.windowOffset_add h, hw]

/-- An access outside the window is not the engine's (R77; log 11). -/
theorem State.windowOffset_eq_none {s : State} {addr : Nat}
    (h : addr < s.params.blockBase ∨ s.params.blockBase + 0x800000 ≤ addr) : s.windowOffset addr = none := by
  unfold windowOffset
  rw [if_neg (by omega)]

/-! ### Aborted outputs -/

/-- What a byte reads after a region is drawn: the draw inside the region and LMEM, else as before (R299). -/
theorem State.readByte_drawRegion (s : State) (r : Region) (a : Nat) : (s.drawRegion r).readByte a =
    if a < s.params.lmemBytes ∧ r.has a = true then Config.abortDraw s.draws a else s.readByte a := by
  unfold drawRegion
  split
  · next h =>
    rw [Region.has_iff] at h
    obtain ⟨i, rfl⟩ : ∃ i, a = r.base + i := ⟨a - r.base, by omega⟩
    rw [readByte_writeBytes_inside (h := by simp only [List.length_map, List.length_range]; omega)]
    simp
  · next h =>
    rw [readByte_writeBytes_outside]
    simp only [Region.has_iff, List.length_map, List.length_range] at h ⊢
    omega

/-- Drawing regions changes LMEM alone. -/
theorem State.foldl_drawRegion_eq (s : State) (rs : List Region) :
    ∃ m, rs.foldl State.drawRegion s = { s with mem := m } := by
  induction rs generalizing s with
  | nil => exact ⟨s.mem, rfl⟩
  | cons r rs ih =>
    obtain ⟨m, hm⟩ := ih (s.drawRegion r)
    exact ⟨m, hm⟩

/-- An SRST that aborts a command is a reset of the registers, but for LMEM and the counter of draws. -/
theorem State.srstAborting_eq (s : State) (outputs : List Region) :
    ∃ m, s.srstAborting outputs = { s.resetRegisters with mem := m, draws := s.draws + 1 } := by
  obtain ⟨m, hm⟩ := s.foldl_drawRegion_eq outputs
  exact ⟨m, by rw [srstAborting, hm]; rfl⟩

end Sys2Proof.Machine
end

