-- ==== Sys2Proof/Laws/Checks.lean ====
section
/-! SUPPORT. When the checks of each macro command pass, in the words of the rules. -/

namespace Sys2Proof.Machine

theorem GenJob.evalTrap_eq_none_iff_accepted (j : GenJob) (size : Nat) :
    j.evalTrap size = none ↔ j.Accepted size false := by
  rw [evalTrap_eq_none_iff, paramTrap_eq_none_iff, GenJob.rangeTrap, rangeTrap_eq_none_iff, overlapTrap_eq_none_iff]
  simp only [evalPairs, GenJob.Accepted, List.mem_cons, List.not_mem_nil, or_false, forall_eq_or_imp, forall_eq,
    secretRegion, coefRegion, outRegion, descRegion, coefBytes, false_imp_iff, and_true, Bool.false_eq_true]
  tauto

theorem GenJob.splitTrap_eq_none_iff_accepted (j : GenJob) (size : Nat) :
    j.splitTrap size = none ↔ j.Accepted size true := by
  rw [splitTrap_eq_none_iff, paramTrap_eq_none_iff, GenJob.rangeTrap, rangeTrap_eq_none_iff, overlapTrap_eq_none_iff]
  simp only [splitPairs, evalPairs, GenJob.Accepted, List.mem_cons, List.mem_append, List.not_mem_nil, or_false, or_imp,
    forall_and, forall_eq, secretRegion, coefRegion, outRegion, descRegion, coefBytes, true_imp_iff]
  tauto

/-- The records before each one have other x-coordinates exactly when no x-coordinate occurs twice. -/
theorem State.shareSet_x_nodup_iff (s : State) : (s.shareSet.map Desc.x).Nodup ↔
    ∀ i, i < s.count.toNat → ∀ k, k < i →
      s.read16 (s.descAddr.toNat + 8 * k) ≠ s.read16 (s.descAddr.toNat + 8 * i) := by
  simp only [List.nodup_iff_pairwise_ne, List.pairwise_iff_getElem, List.length_map, List.getElem_map, shareSet,
    List.getElem_range, List.length_range, descAt]
  exact ⟨fun h i hi k hk => h k i (by omega) hi hk, fun h i j _ hj hij => h j hj i hij⟩

theorem State.shareSetTrap_eq_none_iff_accepted (s : State) (xc lc : Bool) :
    s.shareSetTrap xc lc = none ↔ s.ShareSetAccepted xc lc := by
  rw [shareSetTrap_eq_none_iff, recordTrap_eq_none_iff, shareSet_x_nodup_iff]
  refine and_congr_right fun _ => and_congr_right fun _ => ?_
  simp only [shareSet, List.mem_map, List.mem_range, forall_exists_index, and_imp, forall_apply_eq_imp_iff₂,
    List.not_mem_nil, not_false_eq_true, and_true, descAt, shareLen, Nat.mul_zero, Nat.add_zero]
  constructor
  · rintro ⟨hx, hl⟩ i hi
    exact ⟨fun h => ⟨(hx h).1 i hi, (hx h).2 i hi⟩, fun h => hl h i hi⟩
  · intro h
    exact ⟨fun hx => ⟨fun i hi => ((h i hi).1 hx).1, fun i hi => ((h i hi).1 hx).2⟩, fun hl i hi => (h i hi).2 hl⟩

theorem State.lcombTrap_eq_none_iff_accepted (s : State) : s.lcombTrap = none ↔ s.CombineAccepted false := by
  simp only [lcombTrap, combineRangeTrap, Option.or_eq_none_iff, shareSetTrap_eq_none_iff_accepted, rangeTrap_eq_none_iff,
    overlapTrap_eq_none_iff, lcombPairs, yRegions, shareSet, List.map_map, List.mem_cons, List.mem_append, List.mem_map,
    List.mem_range, List.not_mem_nil, or_false, or_imp, forall_and, forall_eq, forall_exists_index, and_imp,
    forall_apply_eq_imp_iff₂, Function.comp, weightRegion, recoveredRegion, tableRegion, shareLen, descAt, Nat.mul_zero,
    Nat.add_zero, State.CombineAccepted, Bool.false_eq_true, false_imp_iff, and_true]
  tauto

theorem State.lwgtTrap_eq_none_iff_accepted (s : State) :
    s.lwgtTrap = none ↔ s.LwgtAccepted ∧ s.weightTrap = none := by
  simp only [lwgtTrap, Option.or_eq_none_iff, shareSetTrap_eq_none_iff_accepted, rangeTrap_eq_none_iff,
    overlapTrap_eq_none_iff, lwgtPairs, List.mem_cons, List.not_mem_nil, or_false, forall_eq, weightRegion, tableRegion,
    State.LwgtAccepted, and_assoc]

theorem State.recoverTrap_eq_none_iff_accepted (s : State) :
    s.recoverTrap = none ↔ s.CombineAccepted true ∧ s.weightTrap = none := by
  have symm (p q : Region) : overlap p q = overlap q p := by simp only [overlap, Bool.and_comm, Bool.and_left_comm]
  simp only [recoverTrap, combineRangeTrap, Option.or_eq_none_iff, shareSetTrap_eq_none_iff_accepted,
    rangeTrap_eq_none_iff, overlapTrap_eq_none_iff, recoverPairs, yRegions, shareSet, List.map_map, List.mem_cons,
    List.mem_append, List.mem_map, List.mem_range, List.not_mem_nil, or_false, or_imp, forall_and, forall_eq,
    forall_exists_index, and_imp, forall_apply_eq_imp_iff₂, Function.comp, weightRegion, recoveredRegion, tableRegion,
    shareLen, descAt, Nat.mul_zero, Nat.add_zero, State.CombineAccepted, true_imp_iff]
  rw [symm ⟨s.wAddr.toNat, s.count.toNat⟩ ⟨s.secAddr.toNat, _⟩]
  tauto

end Sys2Proof.Machine
end

