-- ==== Sys2Proof/Laws/Encoding.lean ====
section
/-! SUPPORT. What the encoder's formats hold: the opcode, the bits under the row's mask, and each field. -/

namespace Sys2Proof

/-! ### Format N -/

theorem opcode_formatN (op : BitVec 6) : (formatN op).extractLsb' 26 6 = op := by
  ext i hi
  interval_cases i <;> simp [formatN, placeField]

/-! ### Format C -/

theorem opcode_formatC (op : BitVec 6) (a : CsrIx) (b : BitVec 20) : (formatC op a b).extractLsb' 26 6 = op := by
  ext i hi
  interval_cases i <;> simp [formatC, placeField]

theorem mask_formatC (op : BitVec 6) (a : CsrIx) (b : BitVec 20) : formatC op a b &&& 0xFC000000 = formatN op := by
  ext i hi
  interval_cases i <;> simp [formatC, formatN, placeField]

theorem fieldCsrw_formatC (op : BitVec 6) (a : CsrIx) (b : BitVec 20) : fieldCsrw (formatC op a b) = a := by
  have h : (formatC op a b).extractLsb' 20 6 = (BitVec.ofFin a : BitVec 6) := by
    ext i hi
    interval_cases i <;> simp [formatC, placeField]
  simp [fieldCsrw, h]

theorem fieldImm20_formatC (op : BitVec 6) (a : CsrIx) (b : BitVec 20) : fieldImm20 (formatC op a b) = b := by
  ext i hi
  interval_cases i <;> simp [fieldImm20, formatC, placeField]

/-! ### Format CR -/

theorem opcode_formatCR (op : BitVec 6) (a : Reg) (b : CsrIx) : (formatCR op a b).extractLsb' 26 6 = op := by
  ext i hi
  interval_cases i <;> simp [formatCR, placeField]

theorem mask_formatCR (op : BitVec 6) (a : Reg) (b : CsrIx) : formatCR op a b &&& 0xFC00FFFF = formatN op := by
  ext i hi
  interval_cases i <;> simp [formatCR, formatN, placeField]

theorem fieldRd_formatCR (op : BitVec 6) (a : Reg) (b : CsrIx) : fieldRd (formatCR op a b) = a := by
  have h : (formatCR op a b).extractLsb' 22 4 = (BitVec.ofFin a : BitVec 4) := by
    ext i hi
    interval_cases i <;> simp [formatCR, placeField]
  simp [fieldRd, h]

theorem fieldCsrr_formatCR (op : BitVec 6) (a : Reg) (b : CsrIx) : fieldCsrr (formatCR op a b) = b := by
  have h : (formatCR op a b).extractLsb' 16 6 = (BitVec.ofFin b : BitVec 6) := by
    ext i hi
    interval_cases i <;> simp [formatCR, placeField]
  simp [fieldCsrr, h]

/-! ### Format I -/

theorem opcode_formatI (op : BitVec 6) (a : Reg) (b : BitVec 8) : (formatI op a b).extractLsb' 26 6 = op := by
  ext i hi
  interval_cases i <;> simp [formatI, placeField]

theorem mask_formatI (op : BitVec 6) (a : Reg) (b : BitVec 8) : formatI op a b &&& 0xFC3FFF00 = formatN op := by
  ext i hi
  interval_cases i <;> simp [formatI, formatN, placeField]

theorem fieldRd_formatI (op : BitVec 6) (a : Reg) (b : BitVec 8) : fieldRd (formatI op a b) = a := by
  have h : (formatI op a b).extractLsb' 22 4 = (BitVec.ofFin a : BitVec 4) := by
    ext i hi
    interval_cases i <;> simp [formatI, placeField]
  simp [fieldRd, h]

theorem fieldImm8_formatI (op : BitVec 6) (a : Reg) (b : BitVec 8) : fieldImm8 (formatI op a b) = b := by
  ext i hi
  interval_cases i <;> simp [fieldImm8, formatI, placeField]

/-! ### Format M -/

theorem opcode_formatM (op : BitVec 6) (a : Reg) (b : BitVec 22) : (formatM op a b).extractLsb' 26 6 = op := by
  ext i hi
  interval_cases i <;> simp [formatM, placeField]

theorem mask_formatM (op : BitVec 6) (a : Reg) (b : BitVec 22) : formatM op a b &&& 0xFC000000 = formatN op := by
  ext i hi
  interval_cases i <;> simp [formatM, formatN, placeField]

theorem fieldRd_formatM (op : BitVec 6) (a : Reg) (b : BitVec 22) : fieldRd (formatM op a b) = a := by
  have h : (formatM op a b).extractLsb' 22 4 = (BitVec.ofFin a : BitVec 4) := by
    ext i hi
    interval_cases i <;> simp [formatM, placeField]
  simp [fieldRd, h]

theorem fieldAddr22_formatM (op : BitVec 6) (a : Reg) (b : BitVec 22) : fieldAddr22 (formatM op a b) = b := by
  ext i hi
  interval_cases i <;> simp [fieldAddr22, formatM, placeField]

/-! ### Format R -/

theorem opcode_formatR (op : BitVec 6) (a b c : Reg) : (formatR op a b c).extractLsb' 26 6 = op := by
  ext i hi
  interval_cases i <;> simp [formatR, placeField]

theorem mask_formatR (op : BitVec 6) (a b c : Reg) : formatR op a b c &&& 0xFC003FFF = formatN op := by
  ext i hi
  interval_cases i <;> simp [formatR, formatN, placeField]

theorem fieldRd_formatR (op : BitVec 6) (a b c : Reg) : fieldRd (formatR op a b c) = a := by
  have h : (formatR op a b c).extractLsb' 22 4 = (BitVec.ofFin a : BitVec 4) := by
    ext i hi
    interval_cases i <;> simp [formatR, placeField]
  simp [fieldRd, h]

theorem fieldRs1_formatR (op : BitVec 6) (a b c : Reg) : fieldRs1 (formatR op a b c) = b := by
  have h : (formatR op a b c).extractLsb' 18 4 = (BitVec.ofFin b : BitVec 4) := by
    ext i hi
    interval_cases i <;> simp [formatR, placeField]
  simp [fieldRs1, h]

theorem fieldRs2_formatR (op : BitVec 6) (a b c : Reg) : fieldRs2 (formatR op a b c) = c := by
  have h : (formatR op a b c).extractLsb' 14 4 = (BitVec.ofFin c : BitVec 4) := by
    ext i hi
    interval_cases i <;> simp [formatR, placeField]
  simp [fieldRs2, h]

/-! ### Format R1 -/

theorem opcode_formatR1 (op : BitVec 6) (a b : Reg) : (formatR1 op a b).extractLsb' 26 6 = op := by
  ext i hi
  interval_cases i <;> simp [formatR1, placeField]

theorem mask_formatR1 (op : BitVec 6) (a b : Reg) : formatR1 op a b &&& 0xFC03FFFF = formatN op := by
  ext i hi
  interval_cases i <;> simp [formatR1, formatN, placeField]

theorem fieldRd_formatR1 (op : BitVec 6) (a b : Reg) : fieldRd (formatR1 op a b) = a := by
  have h : (formatR1 op a b).extractLsb' 22 4 = (BitVec.ofFin a : BitVec 4) := by
    ext i hi
    interval_cases i <;> simp [formatR1, placeField]
  simp [fieldRd, h]

theorem fieldRs1_formatR1 (op : BitVec 6) (a b : Reg) : fieldRs1 (formatR1 op a b) = b := by
  have h : (formatR1 op a b).extractLsb' 18 4 = (BitVec.ofFin b : BitVec 4) := by
    ext i hi
    interval_cases i <;> simp [formatR1, placeField]
  simp [fieldRs1, h]

end Sys2Proof
end

