-- ==== Sys2Proof/Laws/PerInstr.lean ====
section
/-! SUPPORT. Per command: the word of every command carries its row's opcode and matches its row of R111. -/

namespace Sys2Proof.Laws.EncodedRow

/-- The command's row of the opcode map. -/
def rowOf : Instr → Op
  | .nop => .nop
  | .halt => .halt
  | .csrwi _ _ => .csrwi
  | .csrr _ _ => .csrr
  | .gldi _ _ => .gldi
  | .ldb _ _ => .ldb
  | .stb _ _ => .stb
  | .gxor _ _ _ => .gxor
  | .gmul _ _ _ => .gmul
  | .gdiv _ _ _ => .gdiv
  | .gexp _ _ => .gexp
  | .glog _ _ => .glog
  | .hstep _ _ _ => .hstep
  | .eval => .eval
  | .split => .split
  | .lwgt => .lwgt
  | .lcomb => .lcomb
  | .recover => .recover

/-- The word of the command carries its row's opcode, and under the row's mask it is the row's match (R111). -/
def Statement (i : Instr) : Prop :=
  opOfCode ((encodeWord i).extractLsb' 26 6) = some (rowOf i) ∧ encodeWord i &&& opMask (rowOf i) = opMatch (rowOf i)

theorem nop : Statement .nop := ⟨by decide, by decide⟩

theorem halt : Statement .halt := ⟨by decide, by decide⟩

theorem csrwi (a : CsrIx) (b : BitVec 20) : Statement (.csrwi a b) :=
  ⟨by simp only [encodeWord, opcode_formatC]; rfl, by simp only [encodeWord, rowOf, opMask, mask_formatC]; decide⟩

theorem csrr (a : Reg) (b : CsrIx) : Statement (.csrr a b) :=
  ⟨by simp only [encodeWord, opcode_formatCR]; rfl, by simp only [encodeWord, rowOf, opMask, mask_formatCR]; decide⟩

theorem gldi (a : Reg) (b : BitVec 8) : Statement (.gldi a b) :=
  ⟨by simp only [encodeWord, opcode_formatI]; rfl, by simp only [encodeWord, rowOf, opMask, mask_formatI]; decide⟩

theorem ldb (a : Reg) (b : BitVec 22) : Statement (.ldb a b) :=
  ⟨by simp only [encodeWord, opcode_formatM]; rfl, by simp only [encodeWord, rowOf, opMask, mask_formatM]; decide⟩

theorem stb (a : Reg) (b : BitVec 22) : Statement (.stb a b) :=
  ⟨by simp only [encodeWord, opcode_formatM]; rfl, by simp only [encodeWord, rowOf, opMask, mask_formatM]; decide⟩

theorem gxor (a b c : Reg) : Statement (.gxor a b c) :=
  ⟨by simp only [encodeWord, opcode_formatR]; rfl, by simp only [encodeWord, rowOf, opMask, mask_formatR]; decide⟩

theorem gmul (a b c : Reg) : Statement (.gmul a b c) :=
  ⟨by simp only [encodeWord, opcode_formatR]; rfl, by simp only [encodeWord, rowOf, opMask, mask_formatR]; decide⟩

theorem gdiv (a b c : Reg) : Statement (.gdiv a b c) :=
  ⟨by simp only [encodeWord, opcode_formatR]; rfl, by simp only [encodeWord, rowOf, opMask, mask_formatR]; decide⟩

theorem gexp (a b : Reg) : Statement (.gexp a b) :=
  ⟨by simp only [encodeWord, opcode_formatR1]; rfl, by simp only [encodeWord, rowOf, opMask, mask_formatR1]; decide⟩

theorem glog (a b : Reg) : Statement (.glog a b) :=
  ⟨by simp only [encodeWord, opcode_formatR1]; rfl, by simp only [encodeWord, rowOf, opMask, mask_formatR1]; decide⟩

theorem hstep (a b c : Reg) : Statement (.hstep a b c) :=
  ⟨by simp only [encodeWord, opcode_formatR]; rfl, by simp only [encodeWord, rowOf, opMask, mask_formatR]; decide⟩

theorem eval : Statement .eval := ⟨by decide, by decide⟩

theorem split : Statement .split := ⟨by decide, by decide⟩

theorem lwgt : Statement .lwgt := ⟨by decide, by decide⟩

theorem lcomb : Statement .lcomb := ⟨by decide, by decide⟩

theorem recover : Statement .recover := ⟨by decide, by decide⟩

end Sys2Proof.Laws.EncodedRow
end

