-- ==== Sys2Proof/Tests/Slice0.lean ====
section
/-! SUPPORT. Tests: the checks of WellFormed, the decoding of every command from its fields, one or two steps of each
command with the results that spec/95_test_vectors.md gives, and for every statement with hypotheses a concrete state
and operands that meet them. -/

namespace Sys2Proof.Tests

open Sys2Proof.Machine Host

/-! ### States -/

/-- An engine after reset with LMEM_BYTES = 4096, as in part 3 of spec/95_test_vectors.md. -/
def small : State := { State.reset with params := { lmemExp := 0, blockIndex := 0 } }

/-- Bytes written to LMEM. -/
def loaded (s : State) (l : List (Nat × List Byte)) : State := l.foldl (fun t p => t.writeBytes p.1 p.2) s

/-- Element registers written. -/
def withElems (s : State) (l : List (Reg × Byte)) : State := l.foldl (fun t p => t.setElem p.1 p.2) s

/-- The engine runs, about to fetch this word. -/
def ready (s : State) (w : Nat) : State := s.withFetchWord 32 w

/-- The basic EVAL of part 2.6, in a memory of 4096 bytes: the secret is "Hi". -/
def hi : State :=
  { loaded small [(0x200, [0x48, 0x69]), (0x400, [0x17, 0xE0])] with
    secAddr := 0x200, secLen := 2, needed := 2, total := 3, coefAddr := 0x400, outAddr := 0x800, descAddr := 0xC00 }

/-- `hi` with a SPLIT in flight and these coming answers. -/
def waiting (answers : List Config.RngAnswer) : State :=
  { hi with busy := true, inflight := some hi.genJob, rngScript := answers }

/-- A table of records (x, len, ptr), each half in two bytes, low byte first, at address 0x500. -/
def table (recs : List (List Byte)) : State :=
  { loaded small [(0x500, recs.flatten), (0x600, [0x66, 0xB4, 0x71, 0x54]), (0x680, [0x03, 0x02])] with
    descAddr := 0x500, count := BitVec.ofNat 32 recs.length, wAddr := 0x680, secAddr := 0x700 }

/-- The shares x = 2 and x = 3 of "Hi" (part 2.7). -/
def shares : State := table [[2, 0, 2, 0, 0x00, 6, 0, 0], [3, 0, 2, 0, 0x02, 6, 0, 0]]

/-- A value of the next state. -/
def after {α : Type} (f : State → α) (i : Instr) (s : State) : Option α := (nextState? (exec i s)).map f

/-- The ERRCODE, ERRINFO and BUSY after a fault. -/
def faultOf (t : State) : Bool × Byte × Word × Bool := (t.err, t.errCode, t.errInfo, t.busy)

/-! ### WellFormed: the ill-formed terms -/

theorem test_csrwi_7_ill_formed : (Instr.csrwi 7 0).wellFormed = false := by decide
theorem test_csrwi_17_ill_formed : (Instr.csrwi 17 0).wellFormed = false := by decide
theorem test_csrr_18_ill_formed : (Instr.csrr 0 18).wellFormed = false := by decide
theorem test_csr_bounds_well_formed :
    (Instr.csrwi 8 0).wellFormed ∧ (Instr.csrwi 16 0).wellFormed ∧ (Instr.csrr 0 17).wellFormed := by decide

/-! ### Decoding: each word is written field by field from R101 to R111 -/

theorem test_decode_nop : decodeWord (0b000001#6 ++ 0#26) = .ok .nop := rfl
theorem test_decode_halt : decodeWord (0b000010#6 ++ 0#26) = .ok .halt := rfl
theorem test_decode_csrwi : decodeWord (0b000011#6 ++ 0b001001#6 ++ 0x80001#20) = .ok (.csrwi 9 0x80001) := rfl
theorem test_decode_csrr : decodeWord (0b000100#6 ++ 0b0101#4 ++ 0b010001#6 ++ 0#16) = .ok (.csrr 5 17) := rfl
theorem test_decode_gldi : decodeWord (0b000101#6 ++ 0b1001#4 ++ 0#14 ++ 0x53#8) = .ok (.gldi 9 0x53) := rfl
theorem test_decode_ldb : decodeWord (0b000110#6 ++ 0b1000#4 ++ 0x200100#22) = .ok (.ldb 8 0x200100) := rfl
theorem test_decode_stb : decodeWord (0b000111#6 ++ 0b0011#4 ++ 0x3FFFFF#22) = .ok (.stb 3 0x3FFFFF) := rfl
theorem test_decode_gxor : decodeWord (0b001000#6 ++ 0b0101#4 ++ 0b0011#4 ++ 0b0100#4 ++ 0#14) = .ok (.gxor 5 3 4) := rfl
theorem test_decode_gmul : decodeWord (0b001001#6 ++ 0b0011#4 ++ 0b0001#4 ++ 0b0010#4 ++ 0#14) = .ok (.gmul 3 1 2) := rfl
theorem test_decode_gdiv : decodeWord (0b001010#6 ++ 0b0100#4 ++ 0b0011#4 ++ 0b0010#4 ++ 0#14) = .ok (.gdiv 4 3 2) := rfl
theorem test_decode_gexp : decodeWord (0b001011#6 ++ 0b0110#4 ++ 0b0001#4 ++ 0#18) = .ok (.gexp 6 1) := rfl
theorem test_decode_glog : decodeWord (0b001100#6 ++ 0b0111#4 ++ 0b0110#4 ++ 0#18) = .ok (.glog 7 6) := rfl
theorem test_decode_hstep : decodeWord (0b001101#6 ++ 0b0000#4 ++ 0b0001#4 ++ 0b0010#4 ++ 0#14) = .ok (.hstep 0 1 2) := rfl
theorem test_decode_eval : decodeWord (0b010000#6 ++ 0#26) = .ok .eval := rfl
theorem test_decode_split : decodeWord (0b010001#6 ++ 0#26) = .ok .split := rfl
theorem test_decode_lwgt : decodeWord (0b010010#6 ++ 0#26) = .ok .lwgt := rfl
theorem test_decode_lcomb : decodeWord (0b010011#6 ++ 0#26) = .ok .lcomb := rfl
theorem test_decode_recover : decodeWord (0b010100#6 ++ 0#26) = .ok .recover := rfl

/-- The bytes of `CSRWI SEC_ADDR, 0x200` (part 2.1), low byte first, as the table numbers its bits. -/
theorem test_decode_table_word : decodeTableWord 32 0x0C800200 = some (.csrwi 8 0x200) := by decide
theorem test_decode_truncated : decode [0x00, 0x00, 0x04] = .error .truncated := rfl

/-- The illegal words of part 2.1. -/
theorem test_illegal_words :
    [0x00000000, 0x04000001, 0x0C000000, 0x0D100000, 0x10120000, 0x14400153, 0x214D2000, 0x2D860000, 0x38000000,
      0x3C000000, 0x40000004, 0x54000000, 0xFC000000, 0xFFFFFFFF].all (fun w => decodeTableWord 32 w == none) = true := by
  decide

/-! ### Sequencer commands (part 2.2) -/

theorem test_nop : after State.pc .nop { small with pc := 0x10 } = some 0x14 := by decide
theorem test_halt :
    after (fun t => (t.statusWord, t.pc)) .halt { small with busy := true, pc := 0x28 } = some (2, 0x28) := by decide
theorem test_csrwi : after State.secAddr (.csrwi 8 0x200) small = some 0x200 := by decide
theorem test_csrr_low_byte : after (·.elem 2) (.csrr 2 9) { small with secLen := 0x10D } = some 0x0D := by decide
theorem test_csrr_status : after (·.elem 5) (.csrr 5 2) (ready small 0x11420000) = some 0x01 := by decide
theorem test_gldi : after (·.elem 1) (.gldi 1 0x53) small = some 0x53 := by decide
theorem test_ldb : after (·.elem 8) (.ldb 8 0x100) (loaded small [(0x100, [0x8F])]) = some 0x8F := by decide
theorem test_ldb_outside : after faultOf (.ldb 1 0x1000) small = some (true, 0x13, 0x1000, false) := by decide
theorem test_stb_last_byte : after (·.readByte 0xFFF) (.stb 1 0xFFF) (withElems small [(1, 0x5A)]) = some 0x5A := by decide
theorem test_stb_outside : after faultOf (.stb 1 0x1000) small = some (true, 0x13, 0x1000, false) := by decide

/-! ### Table and arithmetic commands (parts 2.3 to 2.5) -/

theorem test_gexp : after (·.elem 6) (.gexp 6 1) (withElems small [(1, 0x53)]) = some 0xBB := by decide
theorem test_glog : after (·.elem 7) (.glog 7 6) (withElems small [(6, 0xBB)]) = some 0x53 := by decide
theorem test_gxor : after (·.elem 5) (.gxor 5 3 4) (withElems small [(3, 0x8F), (4, 0x53)]) = some 0xDC := by decide
theorem test_gmul : after (·.elem 3) (.gmul 3 1 2) (withElems small [(1, 0xFF), (2, 0xFF)]) = some 0xE2 := by decide
theorem test_gmul_square_in_place : after (·.elem 1) (.gmul 1 1 1) (withElems small [(1, 0x1D)]) = some 0x4C := by decide
theorem test_gdiv : after (·.elem 4) (.gdiv 4 3 2) (withElems small [(3, 0x8F), (2, 0xCA)]) = some 0x53 := by decide
theorem test_gdiv_by_zero : after faultOf (.gdiv 4 3 2) (withElems small [(3, 0x8F)]) = some (true, 0x0A, 0, false) := by
  decide
theorem test_hstep :
    after (·.elem 0) (.hstep 0 1 2) (withElems small [(0, 0xA5), (1, 0x03), (2, 0x3C)]) = some 0xCE := by decide

/-! ### Macro commands (parts 2.6 and 2.7) -/

theorem test_eval_shares : after (·.readBytes 0x800 6) .eval hi = some [0x5F, 0x89, 0x66, 0xB4, 0x71, 0x54] := by decide
theorem test_eval_descriptors : after (fun t => (t.readBytes 0xC00 16, t.count)) .eval hi =
    some ([1, 0, 2, 0, 0x00, 8, 0, 0, 2, 0, 2, 0, 0x02, 8, 0, 0], 3) := by decide
theorem test_split_request : after (fun t => (t.rngWait, t.pc)) .split { hi with busy := true } = some (true, 0) := by decide
theorem test_split_answer : after (fun t => (t.readBytes 0x800 4, t.rngWait, t.pc)) .split (waiting [.bytes [0x17, 0xE0]]) =
    some ([0x5F, 0x89, 0x66, 0xB4], false, 4) := by decide
theorem test_lwgt : after (·.readBytes 0x680 2) .lwgt { shares with mem := shares.mem.writeBytes 0x680 [0, 0] } =
    some [0x03, 0x02] := by decide
theorem test_lcomb : after (fun t => (t.readBytes 0x700 2, t.secLen)) .lcomb shares = some ([0x48, 0x69], 2) := by decide
theorem test_lcomb_with_foreign_weights :
    after (·.readBytes 0x700 2) .lcomb { shares with mem := shares.mem.writeBytes 0x680 [0xF5, 0xF4] } =
      some [0x6B, 0x1F] := by decide
theorem test_recover : after (fun t => (t.readBytes 0x680 2, t.readBytes 0x700 2, t.secLen)) .recover shares =
    some ([0x03, 0x02], [0x48, 0x69], 2) := by decide

/-! ### The step, START and the host (parts 2.2, 2.8 and 2.9) -/

/-- The word of `GLDI e1, 0x53` runs from reset. -/
theorem test_step_from_reset : (nextState? (step (ready State.reset 0x14400053))).map (fun t => (t.elem 1, t.pc)) =
    some (0x53, 4) := by decide
theorem test_illegal_fetch : (nextState? (step (ready small 0))).map faultOf = some (true, 0x10, 0, false) := by decide
theorem test_fetch_outside :
    (nextState? (step { small with busy := true, pc := 0x1000 })).map faultOf = some (true, 0x12, 0x1000, false) := by decide
theorem test_start_misaligned : ({ small with entry := 0x102 }.csrWrite 1 1).map (fun (t : State) => (t.statusWord, t.errPc, t.pc)) =
    some (0x1104, 0x102, 0x102) := by decide
theorem test_host_byte_writes_read_back :
    ((((small.hostAccess (.write 0x400000 .one 1)).hostAccess (.write 0x400001 .one 2)).hostAccess
      (.write 0x400002 .one 3)).hostAccess (.write 0x400003 .one 4)).hostRead 0x400000 .four = ⟨true, 0x04030201⟩ := by
  decide
theorem test_host_status_while_waiting : (waiting []).hostRead 8 .four = ⟨true, 9⟩ := by decide
theorem test_host_lmem_while_busy : (waiting []).hostRead 0x400000 .one = ⟨false, 0⟩ := by decide
theorem test_srst_clears : (({ withElems small [(1, 0x53)] with done := true, secLen := 2 }.csrWrite 1 3).map
    (fun (t : State) => (t.statusWord, t.elem 1, t.secLen))) = some (0, 0, 0) := by decide

/-! ### Witnesses: a concrete state and operands for the hypotheses of each statement, and of each of its clauses -/

theorem witness_EveryWellFormedCommandDecodesBack :
    (Instr.csrwi 16 0xFFFFF).wellFormed = true ∧ (Instr.csrr 15 17).wellFormed = true := by decide
theorem witness_EveryDecodedWordIsItsEncoding : decodeWord 0x0D0FFFFF = .ok (.csrwi 16 0xFFFFF) := rfl

theorem ready_engineReady (w : Nat) : EngineReady (ready small w) := ⟨rfl, rfl, rfl, rfl⟩

theorem witness_IllegalWordsAreTheListedOnesAndFault :
    EngineReady (ready small 0x10120000) ∧ (ready small 0x10120000).inRange (ready small 0x10120000).pc.toNat 4 = true ∧
      (ready small 0x10120000).read32 (ready small 0x10120000).pc.toNat = 0x10120000 ∧
      decodeWord 0x10120000 = .error .csrrOutOfRange :=
  ⟨ready_engineReady _, by decide, by decide, rfl⟩

theorem witness_WorkedEncodingsDecode : ((0x04000000, .nop) : Word × Instr) ∈ [((0x04000000, .nop) : Word × Instr)] ∧
    (0x00000000 : Word) ∈ ([0x00000000] : List Word) := by decide

theorem witness_table_indices : 0 < 254 ∧ 253 < 254 ∧ 255 ≤ 509 ∧ 509 ≤ 509 ∧ (1 : Byte) ≠ 0 ∧ (255 : Byte) ≠ 0 := by decide

theorem witness_EnoughSharesRecoverTheSecretByte :
    ([3, 7, 255] : List Byte).Nodup ∧ (0 : Byte) ∉ ([3, 7, 255] : List Byte) ∧
      ([0xA5, 0x3C] : List Byte).length + 1 ≤ ([3, 7, 255] : List Byte).length := by decide

theorem witness_StepRunsTheDecodedCommand :
    EngineReady (ready small 0x14400053) ∧ (ready small 0x14400053).inRange (ready small 0x14400053).pc.toNat 4 = true ∧
      decodeWord ((ready small 0x14400053).read32 (ready small 0x14400053).pc.toNat) = .ok (.gldi 1 0x53) :=
  ⟨ready_engineReady _, by decide, rfl⟩
theorem witness_StepRunsTheDecodedCommand_waiting :
    (waiting []).schedule = [] ∧ (waiting []).rstLow = false ∧ (waiting []).busy = true ∧
      (waiting []).inflight = some hi.genJob := ⟨rfl, rfl, rfl, rfl⟩

theorem witness_StepRunsTheDecodedCommand_reset : ({ small with rstLow := true } : State).rstLow = true ∧
    ({ small with rstLow := true } : State).schedule = [] := by decide

theorem witness_StepRunsTheDecodedCommand_illegal : EngineReady (ready small 0x10120000) ∧
    (ready small 0x10120000).inRange (ready small 0x10120000).pc.toNat 4 = true ∧
    decodeWord ((ready small 0x10120000).read32 (ready small 0x10120000).pc.toNat) = .error .csrrOutOfRange :=
  ⟨ready_engineReady _, by decide, rfl⟩
theorem witness_StepRunsTheDecodedCommand_idle : small.busy = false := rfl

/-- The first PC whose four bytes do not lie in LMEM, and the last PC of all. -/
theorem witness_FetchOutsideLmemFaults : EngineReady { small with busy := true, pc := 0xFFD } ∧
    small.params.lmemBytes < (0xFFD : Word).toNat + 4 ∧ EngineReady { small with busy := true, pc := 0xFFFFFFFF } ∧
    small.params.lmemBytes < (0xFFFFFFFF : Word).toNat + 4 :=
  ⟨⟨rfl, rfl, rfl, rfl⟩, by decide, ⟨rfl, rfl, rfl, rfl⟩, by decide⟩

theorem witness_OnlyStartLeavesIdle_idle : small.busy = false ∧ small.schedule = [] := by decide
theorem witness_OnlyStartLeavesIdle : ∃ t, ({ small with schedule := [.host (.write 4 .four 1)] } : State).busy = false ∧
    step { small with schedule := [.host (.write 4 .four 1)] } = .next t ∧ t.busy = true := ⟨_, rfl, rfl, rfl⟩

/-- A state with the invariant in which the engine runs. -/
theorem ready_inv : (ready small 0x04000000).Inv where
  memCanonical := by decide
  memInRange := by decide
  pcAligned := by decide
  busyClean := by decide
  notBoth := by decide
  waitBusy := by decide
  codeIffErr := by decide
  codeRaised h := by cases h
  jobCurrent j h := by cases h
  jobChecked j h := by cases h
  jobFetched h := by cases h
  resetIdle := by decide

/-- A state with the invariant in which a SPLIT waits. -/
theorem waiting_inv : (waiting [.bytes []]).Inv where
  memCanonical := by decide
  memInRange := by decide
  pcAligned := by decide
  busyClean := by decide
  notBoth := by decide
  waitBusy := by decide
  codeIffErr := by decide
  codeRaised h := by cases h
  jobCurrent j h := by cases h; rfl
  jobChecked j h := by cases h; decide
  jobFetched h := by decide
  resetIdle := by decide

theorem witness_EveryStepKeepsTheInvariant :
    (ready small 0x04000000).Inv ∧ ∃ t, step (ready small 0x04000000) = .next t := ⟨ready_inv, _, rfl⟩
theorem witness_RunningPcRisesByFour : (ready small 0x04000000).Inv ∧ (ready small 0x04000000).schedule = [] ∧
    (ready small 0x04000000).busy = true ∧ ∃ t, step (ready small 0x04000000) = .next t ∧ t.busy = true :=
  ⟨ready_inv, rfl, rfl, _, rfl, rfl⟩
theorem witness_RunningPcRisesByFour_waiting : (waiting [.bytes []]).Inv ∧ (waiting [.bytes []]).schedule = [] ∧
    (waiting [.bytes []]).busy = true ∧ ∃ t, step (waiting [.bytes []]) = .next t ∧ t.busy = true :=
  ⟨waiting_inv, rfl, rfl, _, rfl, rfl⟩
theorem witness_BothResetsSetEveryRegister : small.inflight = none := rfl
theorem witness_OnlyHostAccessInResetIsRefused :
    step { small with rstLow := true, schedule := [.host (.read 0 .four)] } = .refused .hostAccessInReset := rfl
theorem witness_TakingAFaultStopsAndRecords : ({ small with errIe := true } : State).errIe = true := rfl

theorem witness_FaultsArePrecise : ∃ t, exec (.gdiv 4 3 2) small = .next t ∧ small.err = false ∧ t.err = true :=
  ⟨_, rfl, rfl, rfl⟩
theorem witness_FaultsArePrecise_split : ∃ t, exec .split (waiting [.unavailable]) = .next t ∧
    (waiting [.unavailable]).err = false ∧ t.err = true := ⟨_, rfl, rfl, rfl⟩
theorem witness_RunEndsWithinLmemWords : EngineReady (ready small 0x04000000) := ready_engineReady _

theorem witness_NopOnlyAdvancesPc : (0x04000001 : Word).extractLsb' 26 6 = 0x01 ∧ (0x04000001 : Word) ≠ 0x04000000 := by decide
theorem witness_HaltStopsAndSetsDone : (0x0A000000 : Word).extractLsb' 26 6 = 0x02 ∧ (0x0A000000 : Word) ≠ 0x08000000 ∧
    ({ small with doneIe := true } : State).doneIe = true := by decide
theorem witness_CsrwiWritesOneParameterCsr : 8 ≤ (8 : CsrIx).val ∧ (8 : CsrIx).val ≤ 16 ∧ 8 ≤ (16 : CsrIx).val ∧
    (16 : CsrIx).val ≤ 16 ∧ 8 ≤ 9 ∧ 9 ≤ 16 ∧ 9 ≠ (8 : CsrIx).val := by decide
theorem witness_CsrwiWritesOneParameterCsr_illegal : (0x0D100000 : Word).extractLsb' 26 6 = 0x03 ∧
    ¬(8 ≤ ((0x0D100000 : Word).extractLsb' 20 6).toNat ∧ ((0x0D100000 : Word).extractLsb' 20 6).toNat ≤ 16) := by decide
theorem witness_CsrrReadsTheLowByteOfACsr_illegal : (0x10120000 : Word).extractLsb' 26 6 = 0x04 ∧
    17 < ((0x10120000 : Word).extractLsb' 16 6).toNat := by decide
theorem witness_CsrrReadsTheLowByteOfACsr : (0 : CsrIx).val ≤ 17 ∧ (17 : CsrIx).val ≤ 17 := by decide
theorem witness_CsrrReadsTheLowByteOfACsr_running : (ready small 0x04000000).busy = true ∧
    (ready small 0x04000000).inflight = none ∧ (ready small 0x04000000).Inv := ⟨rfl, rfl, ready_inv⟩
theorem witness_CsrCommandsOutsideTheirRangeFault : ¬(8 ≤ (7 : CsrIx).val ∧ (7 : CsrIx).val ≤ 16) ∧
    ¬(8 ≤ (17 : CsrIx).val ∧ (17 : CsrIx).val ≤ 16) ∧ 17 < (18 : CsrIx).val := by decide

/-- LDB and STB at the last address of LMEM, at the first one outside, and at the last their field holds. -/
theorem witness_byte_addresses : (0xFFF : BitVec 22).toNat < small.params.lmemBytes ∧
    small.params.lmemBytes ≤ (0x1000 : BitVec 22).toNat ∧ small.params.lmemBytes ≤ (0x3FFFFF : BitVec 22).toNat := by decide
theorem witness_GdivDividesOrFaults : (withElems small [(2, 1)]).elem 2 ≠ 0 ∧ small.elem 2 = 0 ∧ (1 : Byte) ≠ 0 := by decide

/-- `hi` with these SEC_LEN, NEEDED and TOTAL. -/
def sized (len needed total : Word) : State := { hi with secLen := len, needed := needed, total := total }

/-- R182's clauses, each at the boundaries of its range; in each state no SPLIT is in flight. -/
theorem witness_GenerationParametersAreValidatedFirst_secret :
    ∀ s ∈ [sized 0 2 3, sized 256 2 3, sized 0xFFFFFFFF 2 3],
      s.inflight = none ∧ (s.secLen.toNat = 0 ∨ 255 < s.secLen.toNat) := by decide
theorem witness_GenerationParametersAreValidatedFirst_threshold :
    ∀ s ∈ [sized 1 0 3, sized 255 1 3, sized 255 3 2, sized 255 256 255],
      s.inflight = none ∧ 1 ≤ s.secLen.toNat ∧ s.secLen.toNat ≤ 255 ∧
        (s.needed.toNat < 2 ∨ s.total.toNat < s.needed.toNat) := by decide
theorem witness_GenerationParametersAreValidatedFirst_count :
    ∀ s ∈ [sized 1 2 256, sized 255 256 256],
      s.inflight = none ∧ 1 ≤ s.secLen.toNat ∧ s.secLen.toNat ≤ 255 ∧ 2 ≤ s.needed.toNat ∧
        s.needed.toNat ≤ s.total.toNat ∧ 255 < s.total.toNat := by decide

/-- The parameters of `hi` pass R182, and its regions fit and are apart. -/
theorem witness_GenerationRegionsAreChecked_parameters : hi.inflight = none ∧ 1 ≤ hi.secLen.toNat ∧ hi.secLen.toNat ≤ 255 ∧
    2 ≤ hi.needed.toNat ∧ hi.needed.toNat ≤ hi.total.toNat ∧ hi.total.toNat ≤ 255 := by decide
/-- Each region of `hi` in turn one byte too high, or at the last address that fits (R184's clauses). -/
theorem witness_GenerationRegionsAreChecked_ranges :
    ({ hi with secAddr := 0xFFF } : State).genJob.rangeTrap 4096 = some ⟨.addressRange, 0xFFF⟩ ∧
    ({ hi with coefAddr := 0xFFF } : State).genJob.rangeTrap 4096 = some ⟨.addressRange, 0xFFF⟩ ∧
    ({ hi with outAddr := 0xFFB } : State).genJob.rangeTrap 4096 = some ⟨.addressRange, 0xFFB⟩ ∧
    ({ hi with descAddr := 0xFE9 } : State).genJob.rangeTrap 4096 = some ⟨.addressRange, 0xFE9⟩ ∧
    ({ hi with secAddr := 0xFFE } : State).genJob.rangeTrap 4096 = none ∧
    ({ hi with descAddr := 0xFE8 } : State).genJob.rangeTrap 4096 = none := by decide
/-- Each of R185's pairs, overlapping in one byte. -/
theorem witness_GenerationRegionsAreChecked_overlaps :
    (∀ s ∈ ([{ hi with outAddr := 0x1FB }, { hi with outAddr := 0x401 }, { hi with descAddr := 0x201 },
      { hi with descAddr := 0x401 }, { hi with outAddr := 0xBFB }] : List State),
      s.genJob.rangeTrap 4096 = none ∧ overlapTrap s.genJob.evalPairs = some ⟨.bufferOverlap, 0⟩) ∧
    overlapTrap ({ hi with coefAddr := 0x201 } : State).genJob.evalPairs = none ∧
    overlapTrap ({ hi with coefAddr := 0x201 } : State).genJob.splitPairs = some ⟨.bufferOverlap, 0⟩ := by decide
theorem witness_EvalWritesSharesAndDescriptors : hi.genJob.Accepted hi.params.lmemBytes false ∧
    1 ≤ 3 ∧ 3 ≤ hi.total.toNat ∧ 1 < hi.secLen.toNat ∧ 2 < hi.total.toNat := by decide
theorem witness_SplitRequestWaitsOnTheRng :
    hi.inflight = none ∧ hi.genJob.Accepted hi.params.lmemBytes true := by decide
theorem witness_SplitCompletesWithTheRandomBytes :
    (waiting [.bytes [0x17, 0xE0]]).inflight = some hi.genJob ∧
      hi.genJob.Accepted (waiting [.bytes [0x17, 0xE0]]).params.lmemBytes true ∧
      (waiting [.bytes [0x17, 0xE0]]).rngAnswer = .bytes [0x17, 0xE0] ∧
      ([0x17, 0xE0] : List Byte).length = hi.genJob.secLen.toNat * (hi.genJob.needed.toNat - 1) :=
  ⟨rfl, by decide, rfl, by decide⟩
theorem witness_UnavailableRandomnessFaults : (waiting [.unavailable]).inflight = some hi.genJob ∧
    (waiting [.unavailable]).rngAnswer = .unavailable := ⟨rfl, rfl⟩
/-- Two messages that are no answer, before one that is. -/
theorem witness_SplitWaitsUntilAnAnswer :
    let s := waiting [.bytes [], .bytes [1, 2, 3], .bytes [0x17, 0xE0]]
    s.schedule = [] ∧ s.rstLow = false ∧ s.busy = true ∧ s.inflight = some hi.genJob ∧ 2 ≤ s.rngScript.length ∧
      ∀ a ∈ s.rngScript.take 2, ∃ r, a = .bytes r ∧
        r.length ≠ hi.genJob.secLen.toNat * (hi.genJob.needed.toNat - 1) := by
  refine ⟨rfl, rfl, rfl, rfl, by decide, ?_⟩
  intro a h
  simp only [waiting, List.take_succ_cons, List.take_zero, List.mem_cons, List.not_mem_nil, or_false] at h
  rcases h with rfl | rfl
  · exact ⟨[], rfl, by decide⟩
  · exact ⟨[1, 2, 3], rfl, by decide⟩

/-- R212's clauses: too few shares; a table that does not fit by one byte; and tables whose record 1 is the first to
fail, by x = 0, by x = 256, by a repeated x, by another length, and a record 0 of length 0. The traps the clauses name. -/
theorem witness_ShareSetValidationReportsTheFirstFailure_table :
    ({ shares with count := 1 } : State).shareSetTrap true true = some ⟨.insufficientShares, 1⟩ ∧
    ({ shares with descAddr := 0xFF1 } : State).shareSetTrap true true = some ⟨.addressRange, 0xFF1⟩ ∧
    ({ shares with descAddr := 0, count := 0x20000000 } : State).shareSetTrap true true = some ⟨.addressRange, 0⟩ := by decide
theorem witness_ShareSetValidationReportsTheFirstFailure_records :
    (table [[5, 0, 2, 0, 0, 6, 0, 0], [0, 0, 2, 0, 0, 6, 0, 0]]).shareSetTrap true false = some ⟨.outOfRangeX, 1⟩ ∧
    (table [[255, 0, 2, 0, 0, 6, 0, 0], [0, 1, 2, 0, 0, 6, 0, 0]]).shareSetTrap true true = some ⟨.outOfRangeX, 1⟩ ∧
    (table [[7, 0, 2, 0, 0, 6, 0, 0], [7, 0, 3, 0, 0, 6, 0, 0]]).shareSetTrap true true = some ⟨.duplicateX, 1⟩ ∧
    (table [[7, 0, 2, 0, 0, 6, 0, 0], [7, 0, 3, 0, 0, 6, 0, 0]]).shareSetTrap false true =
      some ⟨.inconsistentShareLength, 1⟩ ∧
    (table [[1, 0, 0, 0, 0, 6, 0, 0], [2, 0, 0, 0, 0, 6, 0, 0]]).shareSetTrap true true =
      some ⟨.inconsistentShareLength, 0⟩ := by decide

/-- The share set passes for all three commands, and each clause of R213 and R215 has its state. -/
theorem witness_ReconstructionRegionsAreChecked_sets : shares.ShareSetAccepted true false ∧
    shares.ShareSetAccepted false true ∧ shares.ShareSetAccepted true true := ⟨by decide, by decide, by decide⟩
theorem witness_ReconstructionRegionsAreChecked_ranges :
    ({ shares with wAddr := 0xFFF } : State).lwgtTrap = some ⟨.addressRange, 0xFFF⟩ ∧
    ({ shares with wAddr := 0xFFF } : State).lcombTrap = some ⟨.addressRange, 0xFFF⟩ ∧
    (table [[2, 0, 2, 0, 0, 6, 0, 0], [3, 0, 2, 0, 0xFF, 0x0F, 0, 0]]).recoverTrap = some ⟨.addressRange, 0xFFF⟩ ∧
    ({ shares with secAddr := 0xFFF } : State).lcombTrap = some ⟨.addressRange, 0xFFF⟩ ∧
    ({ shares with secAddr := 0xFFF } : State).recoverTrap = some ⟨.addressRange, 0xFFF⟩ := by decide
theorem witness_ReconstructionRegionsAreChecked_overlaps :
    ({ shares with wAddr := 0x50F } : State).lwgtTrap = some ⟨.bufferOverlap, 0⟩ ∧
    ({ shares with secAddr := 0x4FF } : State).lcombTrap = some ⟨.bufferOverlap, 0⟩ ∧
    ({ shares with secAddr := 0x681 } : State).lcombTrap = some ⟨.bufferOverlap, 0⟩ ∧
    ({ shares with secAddr := 0x603 } : State).lcombTrap = some ⟨.bufferOverlap, 0⟩ ∧
    ({ shares with wAddr := 0x50F } : State).recoverTrap = some ⟨.bufferOverlap, 0⟩ ∧
    ({ shares with wAddr := 0x603 } : State).recoverTrap = some ⟨.bufferOverlap, 0⟩ := by decide
theorem witness_LwgtWritesTheWeights : shares.LwgtAccepted ∧ 1 < shares.count.toNat := by decide
theorem witness_LcombCombinesWithTheStoredWeights :
    shares.CombineAccepted false ∧ 1 < (shares.read16 (shares.descAddr.toNat + 2)).toNat := by decide
theorem witness_RecoverWritesWeightsAndSecret : shares.CombineAccepted true ∧ 1 < shares.count.toNat ∧
    1 < (shares.read16 (shares.descAddr.toNat + 2)).toNat := by decide
theorem witness_WeightDenominatorsAreNeverZero : shares.ShareSetAccepted true false ∧
    shares.ShareSetAccepted true true ∧ (3 : Byte) ∈ shares.weights := ⟨by decide, by decide, by decide⟩

/-- EVAL of `hi`. -/
def hiShared : State := (hi.generate hi.genJob).advance
/-- SPLIT of `hi` at the RNG's answer. -/
def hiSplit : State := (waiting [.bytes [0x17, 0xE0]]).splitAnswer hi.genJob
/-- Records 2 and 0 of the table that `hi`'s generation left, in that order, as a table at 0x500, and places for the
weights and the secret. -/
def picked (t : State) : State :=
  { loaded t [(0x500, [3, 0, 2, 0, 0x04, 8, 0, 0, 1, 0, 2, 0, 0x00, 8, 0, 0])] with
    count := 2, descAddr := 0x500, wAddr := 0xD00, secAddr := 0xE00 }

theorem picked_eval_taken : SharesTaken hi.genJob [2, 0] hiShared (picked hiShared) where
  count := by decide
  inTable := by decide
  records i k h := by
    match i, h with
    | 0, h => cases h; decide
    | 1, h => cases h; decide
  bytes := by decide
theorem picked_split_taken : SharesTaken hi.genJob [2, 0] hiSplit (picked hiSplit) where
  count := by decide
  inTable := by decide
  records i k h := by
    match i, h with
    | 0, h => cases h; decide
    | 1, h => cases h; decide
  bytes := by decide

theorem witness_RecoverUndoesEval : hi.genJob.Accepted hi.params.lmemBytes false ∧ exec .eval hi = .next hiShared ∧
    hi.genJob.needed.toNat ≤ ([2, 0] : List Nat).length ∧ SharesTaken hi.genJob [2, 0] hiShared (picked hiShared) ∧
    (picked hiShared).CombineAccepted true := by
  have h1 : hi.genJob.evalTrap hi.params.lmemBytes = none := by decide
  exact ⟨by decide, by simp [exec, execEval, h1, hiShared], by decide, picked_eval_taken, by decide⟩
theorem witness_RecoverUndoesSplit : let s := waiting [.bytes [0x17, 0xE0]]
    s.inflight = some hi.genJob ∧ hi.genJob.Accepted s.params.lmemBytes true ∧ s.rngAnswer = .bytes [0x17, 0xE0] ∧
      ([0x17, 0xE0] : List Byte).length = hi.genJob.secLen.toNat * (hi.genJob.needed.toNat - 1) ∧
      exec .split s = .next hiSplit ∧ hi.genJob.needed.toNat ≤ ([2, 0] : List Nat).length ∧
      SharesTaken hi.genJob [2, 0] hiSplit (picked hiSplit) ∧ (picked hiSplit).CombineAccepted true :=
  ⟨rfl, by decide, rfl, by decide, rfl, by decide, picked_split_taken, by decide⟩
/-- The secret comes back from records 2 and 0: the weights of x = 3 and x = 1 combine 71 54 and 5F 89 to 48 69. -/
theorem test_recover_from_picked_records : after (·.readBytes 0xE00 2) .recover (picked hiSplit) = some [0x48, 0x69] := by
  decide

/-- Good and bad LMEM accesses: the last word, one byte past it, a misaligned half, an engine that runs. -/
theorem witness_HostReachesLmemOnlyWhenIdle :
    (0xFFC < 0x400000 ∧ 0xFFC % 4 = 0 ∧ 0xFFC + 4 ≤ small.params.lmemBytes ∧ small.busy = false) ∧
    ¬(0x1000 + 1 ≤ small.params.lmemBytes) ∧ ¬(1 % HostWidth.two.bytes = 0) ∧ ¬((waiting []).busy = false) := by decide
theorem witness_HostReachesCsrsByAlignedWords :
    (0xFC < 0x100 ∧ 0xFC % 4 = 0) ∧ (0xFE < 0x100 ∧ ¬(0xFE % 4 = 0)) ∧ (0x100 ≤ 0x100 ∧ 0x100 < 0x400000) ∧
    (0x100 ≤ 0x3FFFFF ∧ 0x3FFFFF < 0x400000) ∧ (0x400000 + small.params.lmemBytes ≤ 0x401000 ∧ 0x7FFFFF < 0x800000) := by
  decide
/-- The addresses just below and just above the window of an engine at 8 MiB. -/
theorem witness_HostReachesCsrsByAlignedWords_outside :
    let s : State := { small with params := { lmemExp := 0, blockIndex := 1 } }
    0x7FFFFF < s.params.blockBase ∧ s.params.blockBase + 0x800000 ≤ 0x1000000 := by decide
theorem witness_HostCsrWritesFollowTheAccessKinds :
    (16 < 64 ∧ 8 ≤ 16 ∧ (waiting []).busy = true) ∧ (8 ≤ 8 ∧ small.busy = false) ∧ (1 ≤ 1 ∧ 3 ≤ 3) ∧ (5 ≤ 7 ∧ 7 ≤ 7 ∧ 17 ≤ 63 ∧ 63 < 64) ∧
    (18 ≤ 31 ∧ 31 ≤ 31 ∧ 48 ≤ 48) := by decide
theorem witness_StartBeginsARunOrFaults :
    ((1 : Word).getLsbD 0 = true ∧ (1 : Word).getLsbD 1 = false) ∧ (2 : Word).getLsbD 1 = true ∧
    (3 : Word).getLsbD 1 = true ∧ ((0xFFFFFFFC : Word).getLsbD 0 = false ∧ (0xFFFFFFFC : Word).getLsbD 1 = false) ∧
    (waiting []).busy = true ∧ (small.busy = false ∧ small.entry.toNat % 4 = 0) ∧
    (({ small with entry := 0x102 } : State).busy = false ∧ ({ small with entry := 0x102 } : State).entry.toNat % 4 ≠ 0) ∧
    (small.schedule = [] ∧ small.rstLow = false ∧ small.inflight = none ∧
      small.params.lmemBytes ≤ ({ small with entry := 0x1000 } : State).entry.toNat) := by
  decide
theorem witness_SoftResetChangesOnlyAbortedOutputs : small.inflight = none ∧ (waiting []).inflight = some hi.genJob ∧
    (∀ i ∈ [Instr.nop, .eval, .split, .lwgt, .lcomb, .recover],
      (ready small (encodeWord i).toNat).busy = true ∧ (ready small (encodeWord i).toNat).inflight = none) ∧
    (ready small 0x40000000).fetch = .ok .eval ∧ (ready small 0x44000000).fetch = .ok .split ∧
    (ready small 0x48000000).fetch = .ok .lwgt ∧ (ready small 0x4C000000).fetch = .ok .lcomb ∧
    (ready small 0x50000000).fetch = .ok .recover ∧ (ready small 0x04000000).fetch = .ok .nop ∧
    Instr.nop ∉ [Instr.eval, .split, .lwgt, .lcomb, .recover] :=
  ⟨rfl, rfl, fun _ _ => ⟨rfl, rfl⟩, rfl, rfl, rfl, rfl, rfl, rfl, by decide⟩
/-- An illegal word at PC, and an idle engine: no macro command is there to abort. -/
theorem witness_SoftResetChangesOnlyAbortedOutputs_none :
    ((ready small 0).busy = true → (ready small 0).inflight = none → ∀ i, (ready small 0).fetch ≠ .ok i) ∧
      (small.busy = true → small.inflight = none → ∀ i, small.fetch ≠ .ok i) := by
  have h : (ready small 0).fetch = .error ⟨.illegalCommand, 0⟩ := rfl
  exact ⟨fun _ _ i hi => by simp [h] at hi, fun hb => by cases hb⟩
/-- The byte at the start of an aborted EVAL's region O holds the draw, and the secret is kept (R299). -/
theorem test_srst_in_flight_draws_the_outputs : let s := ready hi 0x40000000
    s.srstInFlight.readByte 0x800 = Config.abortDraw 0 0x800 ∧ s.srstInFlight.readByte 0x200 = 0x48 := ⟨rfl, by decide⟩

end Sys2Proof.Tests
end

section
/-! SUPPORT. The field tables against the generator (R48, R49, R52): each table fact is evaluated once over a byte, and
the rest is algebra: multiplication by the generator is linear, and both products follow it. -/

namespace Sys2Proof.Machine

/-! ### Multiplication by the generator -/

/-- A value where a bit is 1, and 0 where it is not: one term of a sum over bits. -/
def bitTerm (b : Bool) (v : Byte) : Byte := if b then v else 0

theorem bitTerm_xor_left (b c : Bool) (v : Byte) : bitTerm (b ^^ c) v = bitTerm b v ^^^ bitTerm c v := by
  cases b <;> cases c <;> simp [bitTerm]

theorem bitTerm_xor_right (b : Bool) (v w : Byte) : bitTerm b (v ^^^ w) = bitTerm b v ^^^ bitTerm b w := by
  cases b <;> simp [bitTerm]

/-- R48 in eight bits: the shift, and the reduction where bit 7 leaves the byte. -/
theorem timesGenerator_eq_shift_xor :
    ∀ a : Byte, timesGenerator a = a <<< 1 ^^^ bitTerm (a.getLsbD 7) 0x1D := by decide

@[simp] theorem timesGenerator_zero : timesGenerator 0#8 = 0#8 := rfl

@[simp] theorem timesPower_zero_left (k : Nat) : timesPower 0#8 k = 0#8 := by
  induction k with
  | zero => rfl
  | succ k ih => rw [timesPower, ih, timesGenerator_zero]

theorem timesGenerator_ne_zero : ∀ a : Byte, a ≠ 0 → timesGenerator a ≠ 0 := by decide

/-- Multiplication by the generator is linear. -/
theorem timesGenerator_xor (a b : Byte) : timesGenerator (a ^^^ b) = timesGenerator a ^^^ timesGenerator b := by
  simp only [timesGenerator_eq_shift_xor, BitVec.shiftLeft_xor_distrib, BitVec.getLsbD_xor, bitTerm_xor_left]
  ac_rfl

@[simp] theorem timesGenerator_bitTerm (b : Bool) (v : Byte) :
    timesGenerator (bitTerm b v) = bitTerm b (timesGenerator v) := by cases b <;> simp [bitTerm]

theorem timesPower_add (a : Byte) (m n : Nat) : timesPower a (m + n) = timesPower (timesPower a m) n := by
  induction n with
  | zero => rfl
  | succ n ih => rw [← Nat.add_assoc, timesPower, ih, timesPower]

/-! ### EXP -/

/-- A bounded index as a byte. -/
theorem exists_byte_toNat {i : Nat} (h : i ≤ 255) : ∃ x : Byte, x.toNat = i :=
  ⟨BitVec.ofNat 8 i, by simpa using Nat.lt_succ_of_le h⟩

/-- R48, the recurrence, on the first table half and one entry more. -/
theorem expTable_succ_low {i : Nat} (h : i ≤ 255) : expTable (i + 1) = timesGenerator (expTable i) := by
  have onBytes : ∀ x : Byte, expTable (x.toNat + 1) = timesGenerator (expTable x.toNat) := by decide
  obtain ⟨x, rfl⟩ := exists_byte_toNat h
  exact onBytes x

/-- R48, the repetition. -/
theorem expTable_add_period {i : Nat} (h : i ≤ 254) : expTable (i + 255) = expTable i := by
  have onBytes : ∀ x : Byte, x.toNat ≤ 254 → expTable (x.toNat + 255) = expTable x.toNat := by decide
  obtain ⟨x, rfl⟩ := exists_byte_toNat (i := i) (by omega)
  exact onBytes x h

/-- EXP[i] is the generator's i-th power, over the whole table. -/
theorem expTable_eq_timesPower {i : Nat} (h : i ≤ 509) : expTable i = timesPower 1 i := by
  induction i with
  | zero => rfl
  | succ i ih =>
    rw [timesPower, ← ih (by omega)]
    rcases Nat.lt_or_ge i 255 with hi | hi
    · exact expTable_succ_low (by omega)
    · obtain ⟨k, rfl⟩ := Nat.exists_eq_add_of_le' hi
      rw [expTable_add_period (by omega : k ≤ 254), ← expTable_succ_low (by omega),
        ← expTable_add_period (by omega : k + 1 ≤ 254)]

theorem expTable_ne_zero {i : Nat} (h : i ≤ 509) : expTable i ≠ 0 := by
  rw [expTable_eq_timesPower h]
  clear h
  induction i with
  | zero => decide
  | succ i ih => exact timesGenerator_ne_zero _ ih

/-! ### LOG -/

theorem logTable_le (x : Byte) : (logTable x).toNat ≤ 254 := by
  revert x; decide

/-- EXP undoes LOG on every nonzero element (R49). -/
theorem expTable_logTable {x : Byte} (h : x ≠ 0) : expTable (logTable x).toNat = x := by
  revert x; decide

/-- LOG undoes EXP on 0 to 254 (R49). -/
theorem logTable_expTable {i : Nat} (h : i ≤ 254) : (logTable (expTable i)).toNat = i := by
  have onBytes : ∀ x : Byte, x.toNat ≤ 254 → logTable (expTable x.toNat) = x := by decide
  obtain ⟨x, rfl⟩ := exists_byte_toNat (i := i) (by omega)
  rw [onBytes x h]

/-- The index of an EXP entry in 0 to 254 is its logarithm. -/
theorem eq_logTable_of_expTable_eq {i : Nat} {x : Byte} (hi : i ≤ 254) (h : expTable i = x) :
    i = (logTable x).toNat := by
  rw [← h, logTable_expTable hi]

/-- A nonzero element is a power of the generator, its exponent its logarithm. -/
theorem timesPower_one_logTable {x : Byte} (h : x ≠ 0) : timesPower 1 (logTable x).toNat = x := by
  rw [← expTable_eq_timesPower (by have := logTable_le x; omega), expTable_logTable h]

/-! ### The polynomial product -/

/-- The polynomial 0x11D (R2): x^8 is x^4 + x^3 + x^2 + 1. It is so for 1, and so for every power of the generator. -/
theorem timesPower_eight (a : Byte) :
    timesPower a 8 = a ^^^ timesPower a 2 ^^^ timesPower a 3 ^^^ timesPower a 4 := by
  have shift (n k : Nat) : timesPower (timesPower 1 (n + 1)) k = timesGenerator (timesPower (timesPower 1 n) k) := by
    rw [← timesPower_add, show n + 1 + k = n + k + 1 by omega, timesPower, timesPower_add]
  by_cases ha : a = 0
  · simp [ha]
  · rw [← timesPower_one_logTable ha]
    generalize (logTable a).toNat = n
    induction n with
    | zero => decide
    | succ n ih =>
      rw [shift, ih, timesGenerator_xor, timesGenerator_xor, timesGenerator_xor, ← shift, ← shift, ← shift]
      rfl

/-- The polynomial product is the sum of a * x^k over the bits k of b. -/
theorem polyProduct_eq_sum (a b : Byte) :
    polyProduct a b = bitTerm (b.getLsbD 0) (timesPower a 0) ^^^ bitTerm (b.getLsbD 1) (timesPower a 1) ^^^
      bitTerm (b.getLsbD 2) (timesPower a 2) ^^^ bitTerm (b.getLsbD 3) (timesPower a 3) ^^^
      bitTerm (b.getLsbD 4) (timesPower a 4) ^^^ bitTerm (b.getLsbD 5) (timesPower a 5) ^^^
      bitTerm (b.getLsbD 6) (timesPower a 6) ^^^ bitTerm (b.getLsbD 7) (timesPower a 7) := by
  have step (acc : Byte) (c : Bool) (v : Byte) : (if c then acc ^^^ v else acc) = acc ^^^ bitTerm c v := by
    cases c <;> simp [bitTerm]
  simp [polyProduct, step, List.range_succ]

theorem polyProduct_one (a : Byte) : polyProduct a 1 = a := by simp [polyProduct_eq_sum, bitTerm, timesPower]

theorem polyProduct_zero_right (a : Byte) : polyProduct a 0 = 0 := by simp [polyProduct_eq_sum, bitTerm]

theorem polyProduct_zero_left (b : Byte) : polyProduct 0 b = 0 := by
  simp [polyProduct_eq_sum, bitTerm]

/-- The bits of a byte times the generator: the shift, with bit 7 fed back into the bits of 0x1D. -/
theorem getLsbD_timesGenerator (b : Byte) :
    (timesGenerator b).getLsbD 0 = b.getLsbD 7 ∧ (timesGenerator b).getLsbD 1 = b.getLsbD 0 ∧
    (timesGenerator b).getLsbD 2 = (b.getLsbD 1 ^^ b.getLsbD 7) ∧
    (timesGenerator b).getLsbD 3 = (b.getLsbD 2 ^^ b.getLsbD 7) ∧
    (timesGenerator b).getLsbD 4 = (b.getLsbD 3 ^^ b.getLsbD 7) ∧ (timesGenerator b).getLsbD 5 = b.getLsbD 4 ∧
    (timesGenerator b).getLsbD 6 = b.getLsbD 5 ∧ (timesGenerator b).getLsbD 7 = b.getLsbD 6 := by
  revert b; decide

/-- The product follows the generator in its second factor: the bit that the reduction feeds back is a * x^8. -/
theorem polyProduct_timesGenerator (a b : Byte) :
    polyProduct a (timesGenerator b) = timesGenerator (polyProduct a b) := by
  obtain ⟨h0, h1, h2, h3, h4, h5, h6, h7⟩ := getLsbD_timesGenerator b
  have top : timesGenerator (timesPower a 7) = timesPower a 8 := rfl
  simp only [polyProduct_eq_sum, h0, h1, h2, h3, h4, h5, h6, h7, timesGenerator_xor, timesGenerator_bitTerm,
    bitTerm_xor_left, top, timesPower_eight, bitTerm_xor_right]
  simp only [timesPower]
  ac_rfl

/-- A product with x^k is k multiplications by the generator. -/
theorem polyProduct_timesPower_one (a : Byte) (k : Nat) : polyProduct a (timesPower 1 k) = timesPower a k := by
  induction k with
  | zero => exact polyProduct_one a
  | succ k ih => rw [timesPower, polyProduct_timesGenerator, ih, timesPower]

/-- R52: the table product is the polynomial product. -/
theorem gmul_eq_polyProduct (a b : Byte) : gmul a b = polyProduct a b := by
  unfold gmul
  split
  · next h =>
    rcases h with rfl | rfl
    · exact (polyProduct_zero_left b).symm
    · exact (polyProduct_zero_right a).symm
  · next h =>
    obtain ⟨ha, hb⟩ := not_or.1 h
    have hle : (logTable a).toNat + (logTable b).toNat ≤ 509 := by
      have := logTable_le a
      have := logTable_le b
      omega
    calc expTable ((logTable a).toNat + (logTable b).toNat)
        = timesPower (timesPower 1 (logTable a).toNat) (logTable b).toNat := by
          rw [expTable_eq_timesPower hle, timesPower_add]
      _ = timesPower a (logTable b).toNat := by rw [timesPower_one_logTable ha]
      _ = polyProduct a (timesPower 1 (logTable b).toNat) := (polyProduct_timesPower_one a _).symm
      _ = polyProduct a b := by rw [timesPower_one_logTable hb]

/-! ### The statements about the tables -/

/-- Settles O5: the recurrence and the repetition of R48. -/
theorem expTableFollowsTheGenerator : Obligations.ExpTableFollowsTheGenerator := by
  refine ⟨rfl, fun i hi => expTable_succ_low (by omega), fun i h1 h2 => ?_⟩
  obtain ⟨k, rfl⟩ := Nat.exists_eq_add_of_le' h1
  simpa using expTable_add_period (by omega : k ≤ 254)

/-- Settles O6: LOG inverts EXP, and so is its only inverse in 0 to 254. -/
theorem logTableInvertsExp : Obligations.LogTableInvertsExp :=
  ⟨fun x hx => ⟨logTable_le x, expTable_logTable hx, fun _ => eq_logTable_of_expTable_eq⟩, rfl⟩

/-- Settles O7: the listed facts of R52, with the product from `gmul_eq_polyProduct`. -/
theorem fieldTablesHaveTheListedProperties : Obligations.FieldTablesHaveTheListedProperties :=
  ⟨fun x hx => ⟨(logTable x).toNat, logTable_le x, expTable_logTable hx, fun _ => eq_logTable_of_expTable_eq⟩,
    rfl, fun _ => expTable_ne_zero, fun _ => expTable_logTable, fun _ => logTable_expTable, rfl, rfl, rfl, rfl,
    gmul_eq_polyProduct⟩

end Sys2Proof.Machine
end

section
/-! SUPPORT. The host's view of the CSRs (R25 to R47): what each word reads, bit by bit, and what each write does. -/

namespace Sys2Proof.Machine

/-! ### The STATUS and IRQEN words -/

section words

variable (s : State)

theorem State.statusWord_getLsbD_busy : s.statusWord.getLsbD 0 = s.busy := by simp [statusWord, placeField]
theorem State.statusWord_getLsbD_done : s.statusWord.getLsbD 1 = s.done := by simp [statusWord, placeField]
theorem State.statusWord_getLsbD_err : s.statusWord.getLsbD 2 = s.err := by simp [statusWord, placeField]
theorem State.statusWord_getLsbD_rngWait : s.statusWord.getLsbD 3 = s.rngWait := by
  simp [statusWord, placeField]

theorem State.statusWord_errCode : s.statusWord.extractLsb' 8 8 = s.errCode := by
  ext i hi
  interval_cases i <;> simp [statusWord, placeField]

theorem State.statusWord_reserved :
    s.statusWord.extractLsb' 4 4 = 0 ∧ s.statusWord.extractLsb' 16 16 = 0 := by
  constructor <;> ext i hi <;> interval_cases i <;> simp [statusWord, placeField]

theorem State.irqenWord_getLsbD_doneIe : s.irqenWord.getLsbD 0 = s.doneIe := by simp [irqenWord, placeField]
theorem State.irqenWord_getLsbD_errIe : s.irqenWord.getLsbD 1 = s.errIe := by simp [irqenWord, placeField]

theorem State.irqenWord_reserved : s.irqenWord.extractLsb' 2 30 = 0 := by
  ext i hi
  interval_cases i <;> simp [irqenWord, placeField]

/-- IRQEN reads back the two bits written (R33). -/
theorem State.irqenWord_writeIrqen (v : Word) : (s.writeIrqen v).irqenWord = v &&& 3 := by
  ext i hi
  interval_cases i <;> simp [irqenWord, writeIrqen, placeField]

end words

/-! ### Reads -/

/-- At and above index 18 the host sees the element registers at 32 to 47, and 0 elsewhere (R26). -/
theorem State.csrRead_of_ge (s : State) {n : Nat} (h : 18 ≤ n) :
    s.csrRead n = if h : 32 ≤ n ∧ n < 48 then (s.elem ⟨n - 32, by omega⟩).setWidth 32 else 0 := by
  obtain ⟨k, rfl⟩ := Nat.exists_eq_add_of_le' h
  rfl

theorem State.csrRead_reserved (s : State) {n : Nat} (h : (18 ≤ n ∧ n ≤ 31) ∨ 48 ≤ n) : s.csrRead n = 0 := by
  rw [s.csrRead_of_ge (by omega), dif_neg (by omega)]

theorem State.csrRead_elem (s : State) (r : Reg) : s.csrRead (32 + r.val) = (s.elem r).setWidth 32 := by
  rw [s.csrRead_of_ge (by omega), dif_pos (by omega)]
  simp

theorem State.csrRead_lmemBytes (s : State) : (s.csrRead 17).toNat = s.params.lmemBytes := by
  have := lmemBytes_bounds s.params
  show (BitVec.ofNat 32 s.params.lmemBytes).toNat = _
  rw [BitVec.toNat_ofNat]
  omega

/-! ### Writes (R28 to R33) -/

section writes

variable (s : State) (v : Word)

theorem State.writeStatus_done : (s.writeStatus v).done = if v.getLsbD 1 then false else s.done := by
  simp only [writeStatus]
  cases v.getLsbD 1 <;> simp

theorem State.writeStatus_err : (s.writeStatus v).err = if v.getLsbD 2 then false else s.err := by
  simp only [writeStatus]
  cases v.getLsbD 2 <;> simp

theorem State.csrWrite_ctrl : s.csrWrite 1 v = some (s.writeCtrl v) := rfl
theorem State.csrWrite_status : s.csrWrite 2 v = some (s.writeStatus v) := rfl
theorem State.csrWrite_irqen : s.csrWrite 3 v = some (s.writeIrqen v) := rfl

theorem State.csrWrite_entry : s.csrWrite 4 v = if s.busy then none else some { s with entry := v } := rfl

theorem State.csrWrite_param {n : Nat} (h : 8 ≤ n ∧ n ≤ 16) :
    s.csrWrite n v = if s.busy then none else some (s.setParam n v) := by
  unfold csrWrite
  rw [if_neg (by omega), if_neg (by omega), if_neg (by omega), if_neg (by omega), if_pos h]

/-- Writes of the read-only and reserved indices are ignored (R29). -/
theorem State.csrWrite_ignored {n : Nat} (h : n = 0 ∨ (5 ≤ n ∧ n ≤ 7) ∨ 17 ≤ n) : s.csrWrite n v = some s := by
  unfold csrWrite
  rw [if_neg (by omega), if_neg (by omega), if_neg (by omega), if_neg (by omega), if_neg (by omega)]

/-- A write of ENTRY shows at its own index alone. -/
theorem State.csrRead_entry_of_ne {k : Nat} (h : k ≠ 4) : { s with entry := v }.csrRead k = s.csrRead k := by
  obtain hk | ⟨h1, h2⟩ | hk : k < 4 ∨ (4 < k ∧ k < 18) ∨ 18 ≤ k := by omega
  · interval_cases k <;> rfl
  · interval_cases k <;> rfl
  · rw [csrRead_of_ge _ hk, csrRead_of_ge _ hk]
    rfl

/-- A write of a parameter CSR shows at its own index alone. -/
theorem State.csrRead_setParam_of_ne_index {n k : Nat} (hn : 8 ≤ n ∧ n ≤ 16) (h : k ≠ n) :
    (s.setParam n v).csrRead k = s.csrRead k := by
  obtain hk | hk | rfl | hk : k < 8 ∨ (8 ≤ k ∧ k ≤ 16) ∨ k = 17 ∨ 18 ≤ k := by omega
  · interval_cases k <;> simp [csrRead, statusWord, irqenWord, rngWait]
  · exact s.csrRead_setParam_of_ne v hn hk h
  · simp [csrRead]
  · simp only [csrRead_of_ge _ hk, elem_congr (s.setParam_e n v)]

end writes

/-! ### The statements about the CSRs -/

/-- Settles O55: the map of R26, and each access kind of R28 by the equation of its write. -/
theorem hostCsrWritesFollowTheAccessKinds : Obligations.HostCsrWritesFollowTheAccessKinds := by
  refine ⟨fun s => ?_, fun s n v _ => ⟨?_, ?_, ?_, s.csrWrite_ignored v, s.csrRead_reserved, s.csrRead_elem⟩⟩
  · obtain ⟨low, high⟩ := s.statusWord_reserved
    exact ⟨rfl, rfl,
      ⟨s.statusWord_getLsbD_busy, s.statusWord_getLsbD_done, s.statusWord_getLsbD_err, s.statusWord_getLsbD_rngWait,
        low, s.statusWord_errCode, high⟩,
      ⟨s.irqenWord_getLsbD_doneIe, s.irqenWord_getLsbD_errIe, s.irqenWord_reserved⟩,
      rfl, rfl, rfl, rfl, rfl, rfl, rfl, rfl, rfl, rfl, rfl, rfl, rfl, s.csrRead_lmemBytes⟩
  · rintro (rfl | hn) hb
    · rw [State.csrWrite_entry, if_pos hb]
    · rw [s.csrWrite_param v hn, if_pos hb]
  · rintro (rfl | hn) hb
    · exact ⟨{ s with entry := v }, by simp [State.csrWrite_entry, hb], rfl, fun k => s.csrRead_entry_of_ne v,
        ⟨rfl, rfl, rfl, rfl, rfl⟩, fun _ => rfl, fun _ => rfl, ⟨rfl, rfl⟩, ⟨rfl, rfl, rfl, rfl, rfl⟩⟩
    · exact ⟨s.setParam n v, by simp [s.csrWrite_param v hn, hb], s.csrRead_setParam_self v hn,
        fun k => s.csrRead_setParam_of_ne_index v hn, by simp [SameStatus], State.elem_congr (by simp),
        State.readByte_congr (by simp) (by simp), by simp [SameRng], by simp [SameSurroundings]⟩
  · intro hn
    obtain rfl | rfl | rfl : n = 1 ∨ n = 2 ∨ n = 3 := by omega
    exacts [⟨_, s.csrWrite_ctrl v⟩, ⟨_, s.csrWrite_status v⟩, ⟨_, s.csrWrite_irqen v⟩]

/-- Settles O56: a write of STATUS touches DONE, ERR and ERRCODE alone. -/
theorem statusBitsClearOnWritingOne : Obligations.StatusBitsClearOnWritingOne := by
  intro s v
  exact ⟨s.writeStatus v, s.csrWrite_status v, s.writeStatus_done v, s.writeStatus_err v, rfl, rfl, rfl, rfl,
    ⟨rfl, rfl, rfl, rfl, rfl⟩, fun _ => rfl, ⟨⟨rfl, rfl, rfl, rfl, rfl, rfl, rfl⟩, rfl, rfl⟩, fun _ => rfl,
    ⟨rfl, rfl⟩, ⟨rfl, rfl, rfl, rfl, rfl⟩⟩

/-- Settles O57: `irq` against the bits that the STATUS and IRQEN words show. -/
theorem interruptIsTheEnabledLevel : Obligations.InterruptIsTheEnabledLevel := by
  refine ⟨fun s => ?_, rfl, fun s v => ⟨s.writeIrqen v, s.csrWrite_irqen v, s.irqenWord_writeIrqen v, rfl⟩⟩
  have irqen : s.csrRead 3 = s.irqenWord := rfl
  rw [irqen, s.statusWord_getLsbD_done, s.statusWord_getLsbD_err, s.irqenWord_getLsbD_doneIe,
    s.irqenWord_getLsbD_errIe]
  simp [State.irq]

end Sys2Proof.Machine
end

section
/-! SUPPORT. What a command can do to a state, said once: it completes, or it takes a fault that a command raises (R130,
R250 to R256); and the CSR commands with an index that no word encodes (log 8). -/

namespace Sys2Proof.Machine

open Host (Outcome)

/-! ### LMEM within its size -/

/-- LMEM is in canonical form, and lists only addresses below `size` (R70, R72). -/
structure Memory.Within (size : Nat) (m : Memory) : Prop where
  canonical : m.wf
  below : ∀ c ∈ m, c.1 < size

theorem Memory.Within.nil (size : Nat) : Memory.Within size [] := ⟨List.Pairwise.nil, by simp⟩

/-- A write of bytes that fit between their base and `size`, or of none. -/
theorem Memory.Within.writeBytes {size : Nat} {m : Memory} (h : m.Within size) {a : Nat} {bs : List Byte}
    (hfit : bs.length ≤ size - a) : (m.writeBytes a bs).Within size := by
  refine ⟨wf_writeBytes h.canonical a bs, fun c hc => ?_⟩
  rcases mem_writeBytes hc with ⟨h1, h2⟩ | hc
  · omega
  · exact h.below c hc

/-- The regions of a generation lie in LMEM when its range checks pass (R184). -/
theorem GenJob.regions_le_of_rangeTrap {j : GenJob} {size : Nat} (h : j.rangeTrap size = none) :
    j.coefAddr.toNat + j.coefBytes ≤ size ∧ j.outAddr.toNat + j.total.toNat * j.secLen.toNat ≤ size ∧
      j.descAddr.toNat + 8 * j.total.toNat ≤ size := by
  rw [GenJob.rangeTrap, rangeTrap_eq_none_iff] at h
  exact ⟨h j.coefRegion (by simp), h j.outRegion (by simp), h j.descRegion (by simp)⟩

/-- A generation whose range checks pass writes inside LMEM. -/
theorem State.generate_within {s : State} {j : GenJob} {size : Nat} (hm : s.mem.Within size)
    (h : j.rangeTrap size = none) : (s.generate j).mem.Within size := by
  obtain ⟨-, hout, hdesc⟩ := j.regions_le_of_rangeTrap h
  rw [generate_mem]
  refine (hm.writeBytes ?_).writeBytes ?_
  · rw [shareBytes_length]; omega
  · rw [GenJob.descBytes_length]; omega

/-! ### The faults a command raises -/

/-- The faults that a command or its fetch raises: InvalidShareValue is never raised, and FetchMisaligned only by START
(R252, R262, R265). -/
abbrev FaultCode.RaisedByCommand (c : FaultCode) : Prop := c ≠ .invalidShareValue ∧ c ≠ .fetchMisaligned

/-- Every fault that these checks can give is one that a command raises. -/
def RaisesCommandFaults (o : Option Trap) : Prop := ∀ t, o = some t → t.code.RaisedByCommand

theorem RaisesCommandFaults.none : RaisesCommandFaults none := by simp [RaisesCommandFaults]

theorem RaisesCommandFaults.some {c : FaultCode} {info : Word} (h : c.RaisedByCommand) :
    RaisesCommandFaults (some ⟨c, info⟩) := by
  rintro t ht
  cases ht
  exact h

theorem RaisesCommandFaults.or {o p : Option Trap} (ho : RaisesCommandFaults o) (hp : RaisesCommandFaults p) :
    RaisesCommandFaults (o.or p) := by
  intro t ht
  rcases Option.or_eq_some_iff.1 ht with h | ⟨-, h⟩
  exacts [ho t h, hp t h]

theorem RaisesCommandFaults.rangeTrap (size : Nat) (rs : List Region) : RaisesCommandFaults (rangeTrap size rs) := by
  intro t ht
  obtain ⟨-, -, -, -, -, -, rfl⟩ := rangeTrap_eq_some ht
  exact ⟨by simp, by simp⟩

theorem RaisesCommandFaults.overlapTrap (ps : List (Region × Region)) : RaisesCommandFaults (overlapTrap ps) := by
  intro t ht
  obtain ⟨rfl, -⟩ := overlapTrap_eq_some ht
  decide

theorem RaisesCommandFaults.paramTrap (j : GenJob) : RaisesCommandFaults j.paramTrap := by
  unfold GenJob.paramTrap
  split
  · exact .some (by decide)
  split
  · exact .some (by decide)
  split
  · exact .some (by decide)
  · exact .none

theorem RaisesCommandFaults.recordTrap (xc lc : Bool) (len0 : BitVec 16) (ds : List Desc) (i : Nat)
    (seen : List (BitVec 16)) : RaisesCommandFaults (recordTrap xc lc len0 i seen ds) := by
  induction ds generalizing i seen with
  | nil => exact .none
  | cons d ds ih =>
    rw [Machine.recordTrap]
    split
    · exact .some (by decide)
    split
    · exact .some (by decide)
    split
    · exact .some (by decide)
    · exact ih _ _

theorem RaisesCommandFaults.shareSetTrap (s : State) (xc lc : Bool) : RaisesCommandFaults (s.shareSetTrap xc lc) := by
  unfold State.shareSetTrap
  split
  · exact .some (by decide)
  split
  · exact .recordTrap _ _ _ _ _ _
  · exact .some (by decide)

theorem RaisesCommandFaults.weightTrap (s : State) : RaisesCommandFaults s.weightTrap := by
  intro t ht
  obtain ⟨i, -, rfl⟩ := Option.map_eq_some_iff.1 ht
  exact ⟨by simp, by simp⟩

theorem RaisesCommandFaults.evalTrap (j : GenJob) (size : Nat) : RaisesCommandFaults (j.evalTrap size) :=
  ((RaisesCommandFaults.paramTrap j).or (.rangeTrap _ _)).or (.overlapTrap _)

theorem RaisesCommandFaults.splitTrap (j : GenJob) (size : Nat) : RaisesCommandFaults (j.splitTrap size) :=
  ((RaisesCommandFaults.paramTrap j).or (.rangeTrap _ _)).or (.overlapTrap _)

theorem RaisesCommandFaults.lwgtTrap (s : State) : RaisesCommandFaults s.lwgtTrap :=
  (((RaisesCommandFaults.shareSetTrap s _ _).or (.rangeTrap _ _)).or (.overlapTrap _)).or (.weightTrap s)

theorem RaisesCommandFaults.lcombTrap (s : State) : RaisesCommandFaults s.lcombTrap :=
  ((RaisesCommandFaults.shareSetTrap s _ _).or (.rangeTrap _ _)).or (.overlapTrap _)

theorem RaisesCommandFaults.recoverTrap (s : State) : RaisesCommandFaults s.recoverTrap :=
  (((RaisesCommandFaults.shareSetTrap s _ _).or (.rangeTrap _ _)).or (.overlapTrap _)).or (.weightTrap s)

/-- The fault of a fetch is one that a command raises (R130). -/
theorem State.fetch_error_raised {s : State} {t : Trap} (h : s.fetch = .error t) : t.code.RaisedByCommand := by
  rcases s.fetch_cases with ⟨-, i, -, hf⟩ | ⟨-, -, hf⟩ | ⟨-, hf⟩ <;> rw [hf] at h <;> cases h <;>
    simp [FaultCode.RaisedByCommand]

/-! ### A command completes or faults -/

/-- The fields that a completed command keeps, but for PC. -/
theorem completed_iff {s t : State} : Completed s t ↔
    t.pc = s.pc + 4 ∧
    (t.busy = s.busy ∧ t.done = s.done ∧ t.err = s.err ∧ t.errCode = s.errCode ∧ t.inflight = s.inflight) ∧
    (t.doneIe = s.doneIe ∧ t.errIe = s.errIe ∧ t.entry = s.entry ∧ t.errPc = s.errPc ∧ t.errInfo = s.errInfo) ∧
    (t.draws = s.draws ∧ t.rngScript = s.rngScript) ∧
    t.params = s.params ∧ t.rstLow = s.rstLow ∧ t.epoch = s.epoch ∧ t.schedule = s.schedule ∧
      t.hostResp = s.hostResp := Iff.rfl

/-- The outcome of a command in `s`: it completes and keeps LMEM within its size, or it takes a fault. -/
inductive CompletesOrFaults (s : State) : Outcome State Fault Refusal → Prop where
  | completed {t : State} (h : Completed s t)
      (hmem : s.mem.Within s.params.lmemBytes → t.mem.Within s.params.lmemBytes) : CompletesOrFaults s (.next t)
  | faulted {c : FaultCode} {info : Word} (h : c.RaisedByCommand) : CompletesOrFaults s (.next (s.takeFault ⟨c, info⟩))

/-- A command that writes one element register. -/
theorem CompletesOrFaults.setElem (s : State) (r : Reg) (v : Byte) :
    CompletesOrFaults s (.next (s.setElem r v).advance) :=
  .completed (by simp [completed_iff]) id

/-- A command that writes bytes which fit in LMEM. -/
theorem CompletesOrFaults.writeBytes (s : State) {a : Nat} {bs : List Byte} (h : a + bs.length ≤ s.params.lmemBytes) :
    CompletesOrFaults s (.next (s.writeBytes a bs).advance) :=
  .completed (by simp [completed_iff])
    fun hm => hm.writeBytes (by omega)

theorem execCsrwi_completesOrFaults (csr : CsrIx) (imm20 : BitVec 20) (s : State) :
    CompletesOrFaults s (execCsrwi csr imm20 s) := by
  unfold execCsrwi
  split
  · exact .completed (by simp [completed_iff]) (by simp)
  · exact .faulted (by decide)

theorem execCsrr_completesOrFaults (rd : Reg) (csr : CsrIx) (s : State) :
    CompletesOrFaults s (execCsrr rd csr s) := by
  unfold execCsrr
  split
  · exact .setElem ..
  · exact .faulted (by decide)

theorem execLdb_completesOrFaults (rd : Reg) (addr22 : BitVec 22) (s : State) :
    CompletesOrFaults s (execLdb rd addr22 s) := by
  unfold execLdb
  split
  · exact .setElem ..
  · exact .faulted (by decide)

theorem execStb_completesOrFaults (rs : Reg) (addr22 : BitVec 22) (s : State) :
    CompletesOrFaults s (execStb rs addr22 s) := by
  unfold execStb
  split
  · next h => exact .writeBytes s ((s.inRange_iff _ _).1 h)
  · exact .faulted (by decide)

theorem execGdiv_completesOrFaults (rd rs1 rs2 : Reg) (s : State) :
    CompletesOrFaults s (execGdiv rd rs1 rs2 s) := by
  unfold execGdiv
  split
  · exact .setElem ..
  · exact .faulted (by decide)

theorem execEval_completesOrFaults (s : State) : CompletesOrFaults s (execEval s) := by
  unfold execEval
  split
  · next t h => exact .faulted (RaisesCommandFaults.evalTrap _ _ t h)
  · next h =>
    obtain ⟨-, hrange, -⟩ := (s.genJob.evalTrap_eq_none_iff _).1 h
    exact .completed (by simp [completed_iff])
      fun hm => State.generate_within hm hrange

theorem execLwgt_completesOrFaults (s : State) : CompletesOrFaults s (execLwgt s) := by
  unfold execLwgt
  split
  · next t h => exact .faulted (RaisesCommandFaults.lwgtTrap s t h)
  · next h =>
    obtain ⟨⟨-, hw, -⟩, -⟩ := s.lwgtTrap_eq_none_iff_accepted.1 h
    exact .writeBytes s (by rw [State.weights_length]; exact hw)

/-- The recovered bytes fit in LMEM, and so do the weights, when the range checks of LCOMB and RECOVER pass (R213). -/
theorem State.combine_regions_le {s : State} (h : s.combineRangeTrap = none) :
    s.wAddr.toNat + s.count.toNat ≤ s.params.lmemBytes ∧
      s.secAddr.toNat + s.shareLen.toNat ≤ s.params.lmemBytes := by
  rw [combineRangeTrap, rangeTrap_eq_none_iff] at h
  exact ⟨h s.weightRegion (by simp), h s.recoveredRegion (by simp)⟩

theorem execLcomb_completesOrFaults (s : State) : CompletesOrFaults s (execLcomb s) := by
  unfold execLcomb
  split
  · next t h => exact .faulted (RaisesCommandFaults.lcombTrap s t h)
  · next h =>
    simp only [State.lcombTrap, Option.or_eq_none_iff] at h
    obtain ⟨⟨-, hrange⟩, -⟩ := h
    obtain ⟨-, hsec⟩ := State.combine_regions_le hrange
    exact .completed (by simp [completed_iff])
      fun hm => hm.writeBytes (by rw [State.recovered_length]; omega)

theorem execRecover_completesOrFaults (s : State) : CompletesOrFaults s (execRecover s) := by
  unfold execRecover
  split
  · next t h => exact .faulted (RaisesCommandFaults.recoverTrap s t h)
  · next h =>
    simp only [State.recoverTrap, Option.or_eq_none_iff] at h
    obtain ⟨⟨⟨-, hrange⟩, -⟩, -⟩ := h
    obtain ⟨hw, hsec⟩ := State.combine_regions_le hrange
    exact .completed (by simp [completed_iff])
      fun hm => (hm.writeBytes (by rw [State.weights_length]; omega)).writeBytes
        (by rw [State.recovered_length, State.writeBytes_secAddr]; omega)

/-- Every command but HALT, which stops the engine, and SPLIT, which takes two steps, completes or faults. -/
theorem exec_completesOrFaults {i : Instr} (s : State) (hhalt : i ≠ .halt) (hsplit : i ≠ .split) :
    CompletesOrFaults s (exec i s) := by
  cases i with
  | nop => exact .completed (by simp [completed_iff]) id
  | halt => exact absurd rfl hhalt
  | csrwi csr imm20 => exact execCsrwi_completesOrFaults csr imm20 s
  | csrr rd csr => exact execCsrr_completesOrFaults rd csr s
  | gldi rd imm8 => exact .setElem ..
  | ldb rd addr22 => exact execLdb_completesOrFaults rd addr22 s
  | stb rs addr22 => exact execStb_completesOrFaults rs addr22 s
  | gxor rd rs1 rs2 => exact .setElem ..
  | gmul rd rs1 rs2 => exact .setElem ..
  | gdiv rd rs1 rs2 => exact execGdiv_completesOrFaults rd rs1 rs2 s
  | gexp rd rs1 => exact .setElem ..
  | glog rd rs1 => exact .setElem ..
  | hstep rd rs1 rs2 => exact .setElem ..
  | eval => exact execEval_completesOrFaults s
  | split => exact absurd rfl hsplit
  | lwgt => exact execLwgt_completesOrFaults s
  | lcomb => exact execLcomb_completesOrFaults s
  | recover => exact execRecover_completesOrFaults s

/-! ### The CSR commands with an index that no word encodes -/

/-- Taking a fault has exactly R255's effect. -/
theorem faulted_takeFault (s : State) (t : Trap) : Faulted t.code t.info s (s.takeFault t) := by
  refine ⟨rfl, rfl, rfl, rfl, rfl, rfl, rfl, rfl, rfl, rfl, rfl, fun _ => rfl, ?_, fun _ => rfl, ⟨rfl, rfl⟩, ?_⟩
  · exact ⟨⟨rfl, rfl, rfl, rfl, rfl, rfl, rfl⟩, rfl, rfl⟩
  · exact ⟨rfl, rfl, rfl, rfl, rfl⟩

/-- The word of a command decodes as the fields of the command's row (R112). -/
theorem decodeWord_encodeWord {i : Instr} (h : Laws.EncodedRow.Statement i) :
    decodeWord (encodeWord i) = opFields (Laws.EncodedRow.rowOf i) (encodeWord i) := by
  obtain ⟨hop, hmask⟩ := h
  simp only [decodeWord, hop, if_pos hmask]

/-- Settles O27: the decoder refuses the index that the word carries, and exec tests the same index. -/
theorem csrCommandsOutsideTheirRangeFault : Obligations.CsrCommandsOutsideTheirRangeFault := by
  refine ⟨fun csr imm20 s h => ?csrwi, fun rd csr s h => ?csrr⟩
  case csrwi =>
    have hbad : csrwIndexOk csr = false := by simpa [csrwIndexOk] using h
    refine ⟨⟨.csrwOutOfRange, ?_⟩, s.takeFault ⟨.illegalCommand, _⟩, ?_, faulted_takeFault s _⟩
    · rw [decodeWord_encodeWord (Laws.EncodedRow.csrwi csr imm20)]
      simp [Laws.EncodedRow.rowOf, opFields, encodeWord, fieldCsrw_formatC, hbad]
    · exact if_neg (by simp [hbad])
  case csrr =>
    have hbad : csrrIndexOk csr = false := by simpa [csrrIndexOk] using h
    refine ⟨⟨.csrrOutOfRange, ?_⟩, s.takeFault ⟨.illegalCommand, _⟩, ?_, faulted_takeFault s _⟩
    · rw [decodeWord_encodeWord (Laws.EncodedRow.csrr rd csr)]
      simp [Laws.EncodedRow.rowOf, opFields, encodeWord, fieldCsrr_formatCR, hbad]
    · exact if_neg (by simp [hbad])

end Sys2Proof.Machine
end

section
/-! SUPPORT. The invariant: each operation of the engine, the host and the resets keeps it, and so every step does. -/

namespace Sys2Proof.Machine

open Host (Outcome)

section

variable {s t : State}

/-! ### Building the invariant -/

theorem State.Inv.within (h : s.Inv) : s.mem.Within s.params.lmemBytes := ⟨h.memCanonical, h.memInRange⟩

theorem faultNumber_ne_zero (c : FaultCode) : faultNumber c ≠ 0 := by cases c <;> decide

/-- An idle state has the invariant when its LMEM and its flags have it: nothing is in flight. -/
theorem State.Inv.of_idle (hmem : s.mem.Within s.params.lmemBytes) (hbusy : s.busy = false)
    (hjob : s.inflight = none) (hboth : ¬(s.done = true ∧ s.err = true)) (hcode : s.errCode ≠ 0 ↔ s.err = true)
    (hraised : s.err = true → ∃ c, c ≠ FaultCode.invalidShareValue ∧ s.errCode = faultNumber c) : s.Inv where
  memCanonical := hmem.canonical
  memInRange := hmem.below
  pcAligned := by simp [hbusy]
  busyClean := by simp [hbusy]
  notBoth := hboth
  waitBusy := by simp [hjob]
  codeIffErr := hcode
  codeRaised := hraised
  jobCurrent := by simp [hjob]
  jobChecked := by simp [hjob]
  jobFetched := by simp [hjob]
  resetIdle := fun _ => hbusy

/-- An idle state that has just recorded a fault. -/
theorem State.Inv.of_fault {c : FaultCode} (hmem : s.mem.Within s.params.lmemBytes) (hbusy : s.busy = false)
    (hjob : s.inflight = none) (hdone : s.done = false) (herr : s.err = true) (hcode : s.errCode = faultNumber c)
    (hc : c ≠ .invalidShareValue) : s.Inv :=
  .of_idle hmem hbusy hjob (by simp [hdone])
    ⟨fun _ => herr, fun _ => hcode ▸ faultNumber_ne_zero c⟩ fun _ => ⟨c, hc, hcode⟩

/-- An idle state without a fault. -/
theorem State.Inv.of_clean (hmem : s.mem.Within s.params.lmemBytes) (hbusy : s.busy = false)
    (hjob : s.inflight = none) (herr : s.err = false) (hcode : s.errCode = 0) : s.Inv :=
  .of_idle hmem hbusy hjob (by simp [herr]) (by simp [hcode, herr]) (by simp [herr])

/-- An idle engine has nothing in flight. -/
theorem State.Inv.inflight_eq_none (h : s.Inv) (hbusy : s.busy = false) : s.inflight = none :=
  Option.not_isSome_iff_eq_none.1 fun hwait => by simpa [hbusy] using h.waitBusy hwait

/-- Without a fault ERRCODE is 0. -/
theorem State.Inv.errCode_eq_zero (h : s.Inv) (herr : s.err = false) : s.errCode = 0 := by
  have hcode := h.codeIffErr
  simpa [herr] using hcode

/-! ### The engine -/

theorem State.Inv.setSchedule (h : s.Inv) (events : List Event) : (s.setSchedule events).Inv := { h with }

theorem State.Inv.respond (h : s.Inv) (r : HostResp) : (s.respond r).Inv := { h with }

theorem State.Inv.consumeAnswer (h : s.Inv) : s.consumeAnswer.Inv := { h with }

/-- LMEM may change while a SPLIT is in flight, within its size. -/
theorem State.Inv.writeBytes (h : s.Inv) {a : Nat} {bs : List Byte} (hfit : a + bs.length ≤ s.params.lmemBytes) :
    (s.writeBytes a bs).Inv :=
  have hmem : (s.writeBytes a bs).mem.Within s.params.lmemBytes := h.within.writeBytes (by omega)
  { h with memCanonical := hmem.canonical, memInRange := hmem.below }

/-- The SPLIT in flight is over. -/
theorem State.Inv.dropJob (h : s.Inv) : { s with inflight := none }.Inv :=
  { h with waitBusy := nofun, jobCurrent := nofun, jobChecked := nofun, jobFetched := nofun }

/-- Taking a fault while the engine runs (R255). -/
theorem State.Inv.takeFault (h : s.Inv) (hbusy : s.busy = true) {c : FaultCode} {info : Word}
    (hc : c ≠ .invalidShareValue) : (s.takeFault ⟨c, info⟩).Inv :=
  .of_fault h.within rfl rfl (h.busyClean hbusy).1 rfl rfl hc

/-- PC + 4 is a multiple of 4 when PC is, also where it wraps (R23). -/
theorem toNat_add_four_mod {pc : Word} (h : pc.toNat % 4 = 0) : (pc + 4).toNat % 4 = 0 := by
  have four : (4 : Word).toNat = 4 := rfl
  rw [BitVec.toNat_add, four]
  omega

/-- A command that completes with nothing in flight (R130). -/
theorem State.Inv.of_completed (h : s.Inv) (hjob : s.inflight = none) (hc : Completed s t)
    (hmem : t.mem.Within s.params.lmemBytes) : t.Inv := by
  obtain ⟨hpc, ⟨hbusy, hdone, herr, hcode, hjob'⟩, -, -, hparams, hlow, -⟩ := hc
  rw [hjob] at hjob'
  rw [← hparams] at hmem
  exact {
    memCanonical := hmem.canonical
    memInRange := hmem.below
    pcAligned := fun hb => by rw [hpc]; exact toNat_add_four_mod (h.pcAligned (hbusy ▸ hb))
    busyClean := by simpa only [hbusy, hdone, herr] using h.busyClean
    notBoth := by simpa only [hdone, herr] using h.notBoth
    waitBusy := by simp [hjob']
    codeIffErr := by simpa only [hcode, herr] using h.codeIffErr
    codeRaised := by simpa only [hcode, herr] using h.codeRaised
    jobCurrent := by simp [hjob']
    jobChecked := by simp [hjob']
    jobFetched := by simp [hjob']
    resetIdle := by simpa only [hlow, hbusy] using h.resetIdle }

theorem State.Inv.of_completesOrFaults (h : s.Inv) (hbusy : s.busy = true) (hjob : s.inflight = none)
    (ho : CompletesOrFaults s (.next t)) : t.Inv := by
  cases ho with
  | completed hc hmem => exact h.of_completed hjob hc (hmem h.within)
  | faulted hc => exact h.takeFault hbusy hc.1

/-- HALT (R132). -/
theorem State.Inv.halt (h : s.Inv) (hbusy : s.busy = true) (hjob : s.inflight = none) :
    { s with busy := false, done := true }.Inv := by
  obtain ⟨-, herr⟩ := h.busyClean hbusy
  exact .of_clean h.within rfl hjob herr (h.errCode_eq_zero herr)

/-- SPLIT's request (R188, R191): the checks have passed, and the command was fetched. -/
theorem State.Inv.splitRequest (h : s.Inv) (hbusy : s.busy = true) (hfetch : s.inRange s.pc.toNat 4 = true) :
    s.splitRequest.Inv := by
  rcases s.splitRequest_cases with ⟨t, ht, heq⟩ | ⟨hnone, heq⟩ <;> rw [heq]
  · exact h.takeFault hbusy (RaisesCommandFaults.splitTrap _ _ t ht).1
  · exact { h with
      waitBusy := fun _ => hbusy
      jobCurrent := fun j hj => (Option.some.inj hj).symm
      jobChecked := fun j hj => Option.some.inj hj ▸ hnone
      jobFetched := fun _ => hfetch }

/-- SPLIT's step at the RNG (R188, R191; log 3). -/
theorem State.Inv.splitAnswer (h : s.Inv) {j : GenJob} (hj : s.inflight = some j) : (s.splitAnswer j).Inv := by
  have hbusy : s.busy = true := h.waitBusy (by simp [hj])
  obtain ⟨-, hrange, -⟩ := (j.splitTrap_eq_none_iff _).1 (h.jobChecked j hj)
  obtain ⟨hcoef, -, -⟩ := j.regions_le_of_rangeTrap hrange
  rcases s.splitAnswer_cases j with ⟨-, heq⟩ | ⟨r, -, hlen, heq⟩ | ⟨r, -, -, heq⟩ <;> rw [heq]
  · exact h.consumeAnswer.takeFault hbusy (by simp)
  · have hdrawn : (s.consumeAnswer.writeBytes j.coefAddr.toNat r).Inv :=
      h.consumeAnswer.writeBytes (by rw [hlen]; exact hcoef)
    refine hdrawn.dropJob.of_completed rfl ?_ (State.generate_within hdrawn.dropJob.within hrange)
    simp [completed_iff]
  · exact h.consumeAnswer

/-- A command at PC, run with nothing in flight. -/
theorem exec_keeps_inv (h : s.Inv) (hbusy : s.busy = true) (hjob : s.inflight = none)
    (hfetch : s.inRange s.pc.toNat 4 = true) {i : Instr} (he : exec i s = .next t) : t.Inv := by
  by_cases hhalt : i = .halt
  · subst hhalt
    obtain rfl : { s with busy := false, done := true } = t := Outcome.next.inj he
    exact h.halt hbusy hjob
  by_cases hsplit : i = .split
  · subst hsplit
    have heq : exec .split s = .next s.splitRequest := by simp [exec, execSplit, hjob]
    obtain rfl : s.splitRequest = t := Outcome.next.inj (heq.symm.trans he)
    exact h.splitRequest hbusy hfetch
  · exact h.of_completesOrFaults hbusy hjob (he ▸ exec_completesOrFaults s hhalt hsplit)

theorem engineTurn_keeps_inv (h : s.Inv) (he : engineTurn s = .next t) : t.Inv := by
  rcases engineTurn_cases s with ⟨-, heq⟩ | ⟨-, -, hwait, heq⟩ | ⟨-, hbusy, hjob, i, hf, heq⟩ |
    ⟨-, hbusy, -, trap, hf, heq⟩ <;> rw [heq] at he
  · cases he
    exact h
  · obtain ⟨j, hj⟩ := Option.isSome_iff_exists.1 hwait
    have hsplit : exec .split s = .next (s.splitAnswer j) := by simp [exec, execSplit, hj]
    obtain rfl : s.splitAnswer j = t := Outcome.next.inj (hsplit.symm.trans he)
    exact h.splitAnswer hj
  · have hfetch : s.inRange s.pc.toNat 4 = true := by
      rcases s.fetch_cases with ⟨hr, -⟩ | ⟨hr, -⟩ | ⟨-, hbad⟩
      · exact hr
      · exact hr
      · simp [hbad] at hf
    exact exec_keeps_inv h hbusy hjob hfetch he
  · cases he
    exact h.takeFault hbusy (State.fetch_error_raised hf).1

/-! ### The resets -/

/-- Drawing regions stays inside LMEM (R299). -/
theorem State.foldl_drawRegion_within (rs : List Region) {s : State} (h : s.mem.Within s.params.lmemBytes) :
    (rs.foldl State.drawRegion s).mem.Within s.params.lmemBytes := by
  induction rs generalizing s with
  | nil => exact h
  | cons r rs ih => exact ih (s := s.drawRegion r) (h.writeBytes (by simp))

theorem State.Inv.srstAborting (h : s.Inv) (outputs : List Region) : (s.srstAborting outputs).Inv := by
  have hparams : (outputs.foldl State.drawRegion s).params = s.params := by
    obtain ⟨m, hm⟩ := s.foldl_drawRegion_eq outputs
    rw [hm]
  refine .of_clean ?_ rfl rfl rfl rfl
  show (outputs.foldl State.drawRegion s).mem.Within (outputs.foldl State.drawRegion s).params.lmemBytes
  rw [hparams]
  exact State.foldl_drawRegion_within outputs h.within

/-- Every SRST is an SRST that aborts a command with some output regions (R263). -/
theorem State.srst_eq_srstAborting (s : State) : ∃ outputs, s.srst = s.srstAborting outputs := by
  cases hi : s.inflight with
  | none => exact ⟨[], by simp [srst, hi]⟩
  | some j => exact ⟨j.splitOutputs, by simp [srst, hi]⟩

theorem State.srstInFlight_eq_srstAborting (s : State) : ∃ outputs, s.srstInFlight = s.srstAborting outputs := by
  unfold srstInFlight
  split
  · exact ⟨_, rfl⟩
  · exact s.srst_eq_srstAborting

theorem State.Inv.srst (h : s.Inv) : s.srst.Inv := by
  obtain ⟨outputs, heq⟩ := s.srst_eq_srstAborting
  rw [heq]
  exact h.srstAborting outputs

theorem State.Inv.srstInFlight (h : s.Inv) : s.srstInFlight.Inv := by
  obtain ⟨outputs, heq⟩ := s.srstInFlight_eq_srstAborting
  rw [heq]
  exact h.srstAborting outputs

/-- `rst_n` going low gives a state with the invariant, whatever the state before (R290, R291). -/
theorem State.inv_rstAssert (s : State) : s.rstAssert.Inv := .of_clean (.nil _) rfl rfl rfl rfl

theorem State.Inv.rstRelease (h : s.Inv) : s.rstRelease.Inv := { h with resetIdle := nofun }

/-! ### The host -/

/-- An address with its low two bits 0 is a multiple of 4. -/
theorem toNat_mod_four_of_low_bits {w : Word} (h : w.extractLsb' 0 2 = 0) : w.toNat % 4 = 0 := by
  simpa using congrArg BitVec.toNat h

/-- START (R262). -/
theorem State.Inv.start (h : s.Inv) (hlow : s.rstLow = false) : s.start.Inv := by
  rcases s.start_cases with ⟨-, heq⟩ | ⟨hidle, -, heq⟩ | ⟨hidle, halign, heq⟩ <;> rw [heq]
  · exact h
  · exact .of_fault (c := .fetchMisaligned) h.within hidle (h.inflight_eq_none hidle) rfl rfl rfl (by simp)
  · have hjob : s.inflight = none := h.inflight_eq_none hidle
    exact {
      memCanonical := h.memCanonical
      memInRange := h.memInRange
      pcAligned := fun _ => toNat_mod_four_of_low_bits halign
      busyClean := fun _ => ⟨rfl, rfl⟩
      notBoth := nofun
      waitBusy := fun _ => rfl
      codeIffErr := by simp
      codeRaised := nofun
      jobCurrent := by simp [hjob]
      jobChecked := by simp [hjob]
      jobFetched := by simp [hjob]
      resetIdle := by simp [hlow] }

theorem State.Inv.writeCtrl (h : s.Inv) (hlow : s.rstLow = false) (v : Word) : (s.writeCtrl v).Inv := by
  unfold State.writeCtrl
  split
  · exact h.srst
  split
  · exact h.start hlow
  · exact h

/-- A write of STATUS clears ERR and ERRCODE together (R32). -/
theorem State.Inv.writeStatus (h : s.Inv) (v : Word) : (s.writeStatus v).Inv := by
  have hcode : (s.writeStatus v).errCode = if v.getLsbD 2 then 0 else s.errCode := rfl
  have hdone : (s.writeStatus v).done = true → s.done = true := by rw [s.writeStatus_done v]; split <;> simp
  have herr : (s.writeStatus v).err = true → s.err = true := by rw [s.writeStatus_err v]; split <;> simp
  exact { h with
    busyClean := fun hb => by simp [s.writeStatus_done v, s.writeStatus_err v, h.busyClean hb]
    notBoth := fun ⟨hd, he⟩ => h.notBoth ⟨hdone hd, herr he⟩
    codeIffErr := by
      rw [hcode, s.writeStatus_err v]
      cases v.getLsbD 2
      · exact h.codeIffErr
      · simp
    codeRaised := by
      rw [hcode, s.writeStatus_err v]
      cases v.getLsbD 2
      · exact h.codeRaised
      · simp }

/-- A write of a CSR that answers (R28): a parameter CSR changes only while the engine is idle. -/
theorem State.Inv.csrWrite (h : s.Inv) (hlow : s.rstLow = false) {n : Nat} {v : Word}
    (hw : s.csrWrite n v = some t) : t.Inv := by
  obtain rfl | rfl | rfl | rfl | hn | hn : n = 1 ∨ n = 2 ∨ n = 3 ∨ n = 4 ∨ (8 ≤ n ∧ n ≤ 16) ∨
    (n = 0 ∨ (5 ≤ n ∧ n ≤ 7) ∨ 17 ≤ n) := by omega
  · obtain rfl : s.writeCtrl v = t := Option.some.inj ((s.csrWrite_ctrl v).symm.trans hw)
    exact h.writeCtrl hlow v
  · obtain rfl : s.writeStatus v = t := Option.some.inj ((s.csrWrite_status v).symm.trans hw)
    exact h.writeStatus v
  · obtain rfl : s.writeIrqen v = t := Option.some.inj ((s.csrWrite_irqen v).symm.trans hw)
    exact { h with }
  · rw [csrWrite_entry] at hw
    split at hw <;> cases hw
    exact { h with }
  · rw [s.csrWrite_param v hn] at hw
    split at hw <;> cases hw
    next hidle =>
    have hbusy : s.busy = false := by simpa using hidle
    exact .of_idle (by simpa using h.within) (by simpa using hbusy) (by simpa using h.inflight_eq_none hbusy)
      (by simpa using h.notBoth) (by simpa using h.codeIffErr) (by simpa using h.codeRaised)
  · rw [s.csrWrite_ignored v hn] at hw
    cases hw
    exact h

/-- A host write that answers (R77 to R80). -/
theorem State.Inv.hostWrite (h : s.Inv) (hlow : s.rstLow = false) {off : Nat} {w : HostWidth} {data : Word}
    (hw : s.hostWrite off w data = some t) : t.Inv := by
  unfold State.hostWrite at hw
  split at hw
  · split at hw
    · exact h.csrWrite hlow hw
    · cases hw
  split at hw
  · split at hw
    · next hok =>
      cases hw
      simp only [hostLmemOk, Bool.and_eq_true, State.inRange_iff] at hok
      obtain ⟨⟨-, hin⟩, -⟩ := hok
      refine h.writeBytes (Nat.le_trans (Nat.add_le_add_left ?_ _) hin)
      exact List.length_take_le _ _
    · cases hw
  · cases hw

theorem State.Inv.hostAccess (h : s.Inv) (hlow : s.rstLow = false) (op : HostOp) : (s.hostAccess op).Inv := by
  cases op with
  | read addr w =>
    cases hoff : s.windowOffset addr <;> simp only [State.hostAccess, hoff]
    · exact h
    · exact h.respond _
  | write addr w data =>
    cases hoff : s.windowOffset addr <;> simp only [State.hostAccess, hoff]
    · exact h
    split
    · next hw => exact (h.hostWrite hlow hw).respond _
    · exact h.respond _

/-! ### The step -/

/-- A host event that answers happens while `rst_n` is high (R290; log 10). -/
theorem State.hostEvent_eq_next {after : State} (he : s.hostEvent after = .next t) : s.rstLow = false ∧ t = after := by
  unfold hostEvent at he
  split at he
  · cases he
  · next hlow => exact ⟨by simpa using hlow, (Outcome.next.inj he).symm⟩

theorem handleEvent_keeps_inv {ev : Event} (h : s.Inv) (he : handleEvent ev s = .next t) : t.Inv := by
  cases ev with
  | engine => exact engineTurn_keeps_inv h he
  | host op =>
    obtain ⟨hlow, rfl⟩ := State.hostEvent_eq_next he
    exact h.hostAccess hlow op
  | srstInFlight =>
    obtain ⟨-, rfl⟩ := State.hostEvent_eq_next he
    exact h.srstInFlight.respond _
  | rstLow =>
    cases he
    exact s.inv_rstAssert
  | rstHigh =>
    cases he
    exact h.rstRelease

end

/-- Settles O14: an empty schedule gives the engine its turn, and else the next event is handled, off the schedule. -/
theorem everyStepKeepsTheInvariant : Obligations.EveryStepKeepsTheInvariant := by
  intro s t h he
  cases hsch : s.schedule with
  | nil => exact engineTurn_keeps_inv h (step_of_nil hsch ▸ he)
  | cons ev rest => exact handleEvent_keeps_inv (h.setSchedule rest) (step_of_cons hsch ▸ he)

end Sys2Proof.Machine
end

section
/-! SUPPORT. LMEM as the host and the engine see it: multi-byte values (R71), and which host accesses the window
answers (R77 to R80). -/

namespace Sys2Proof.Machine

/-! ### Multi-byte values -/

section memWrite

variable (s : State) (a : Nat) {n : Nat} (v : Word)

/-- The byte of a word that stands at offset i is bits 8i+7 to 8i (R71). -/
theorem bytesOfWord_getElem {i : Nat} (h : i < (bytesOfWord v).length) : (bytesOfWord v)[i] = v.extractLsb' (8 * i) 8 := by
  rw [bytesOfWord_length] at h
  interval_cases i <;> rfl

theorem State.readByte_memWrite {i : Nat} (hi : i < n) (hn : n ≤ 4) :
    (s.memWrite a n v).readByte (a + i) = v.extractLsb' (8 * i) 8 := by
  have hlen : i < ((bytesOfWord v).take n).length := by rw [List.length_take, bytesOfWord_length]; omega
  rw [memWrite, readByte_writeBytes_inside _ _ _ hlen, List.getElem_take, bytesOfWord_getElem]

theorem State.sameMemoryOutside_memWrite (hn : n ≤ 4) : SameMemoryOutside [⟨a, n⟩] s (s.memWrite a n v) := by
  have hlen : ((bytesOfWord v).take n).length = n := by rw [List.length_take, bytesOfWord_length]; omega
  intro b hb
  exact s.readByte_writeBytes_region (r := ⟨a, n⟩) hlen (hb _ List.mem_cons_self)

/-- MemRead(a, 2) puts together two bytes of a word (R71). -/
theorem State.read16_eq_extract {k : Nat} (h0 : s.readByte a = v.extractLsb' k 8)
    (h1 : s.readByte (a + 1) = v.extractLsb' (k + 8) 8) : s.read16 a = v.extractLsb' k 16 := by
  rw [read16, h0, h1]
  ext i hi
  interval_cases i <;> simp [Nat.add_assoc]

/-- MemRead(a, 4) puts together the four bytes of a word (R71). -/
theorem State.read32_eq (h0 : s.readByte a = v.extractLsb' 0 8) (h1 : s.readByte (a + 1) = v.extractLsb' 8 8)
    (h2 : s.readByte (a + 2) = v.extractLsb' 16 8) (h3 : s.readByte (a + 3) = v.extractLsb' 24 8) :
    s.read32 a = v := by
  rw [read32, h0, h1, h2, h3]
  ext i hi
  interval_cases i <;> simp [wordOfBytes, placeField]

end memWrite

/-! ### The conditions of an access -/

@[simp] theorem HostWidth.bytes_pos (w : HostWidth) : 0 < w.bytes := by cases w <;> decide

theorem HostWidth.bytes_le_four (w : HostWidth) : w.bytes ≤ 4 := by cases w <;> decide

/-- The three conditions of R79. -/
theorem State.hostLmemOk_iff (s : State) (a : Nat) (w : HostWidth) :
    s.hostLmemOk a w = true ↔ a % w.bytes = 0 ∧ a + w.bytes ≤ s.params.lmemBytes ∧ s.busy = false := by
  simp [hostLmemOk, and_assoc]

/-- The two conditions of R80. -/
theorem hostCsrOk_iff (off : Nat) (w : HostWidth) : hostCsrOk off w = true ↔ w = .four ∧ off % 4 = 0 := by
  simp [hostCsrOk]

/-- No host access reaches past the end of LMEM (R77). -/
theorem State.hostLmemOk_of_ge (s : State) {a : Nat} (w : HostWidth) (h : s.params.lmemBytes ≤ a) :
    s.hostLmemOk a w = false := by
  have := w.bytes_pos
  rw [← Bool.not_eq_true, hostLmemOk_iff]
  omega

/-! ### What an access does, window by window -/

section access

variable (s : State) {a off : Nat} {w : HostWidth} (data : Word)

/-- A good access to the register window reaches CSR index offset/4 (R80). -/
theorem State.hostRead_csr (hoff : off < 0x100) (hok : hostCsrOk off w = true) :
    s.hostRead off w = ⟨true, s.csrRead (off / 4)⟩ := by
  rw [hostRead, if_pos hoff, if_pos hok]

theorem State.hostWrite_csr (hoff : off < 0x100) (hok : hostCsrOk off w = true) :
    s.hostWrite off w data = s.csrWrite (off / 4) data := by
  rw [hostWrite, if_pos hoff, if_pos hok]

/-- A good access to the LMEM window reaches the bytes from a on (R79). -/
theorem State.hostRead_lmem (hok : s.hostLmemOk a w = true) :
    s.hostRead (0x400000 + a) w = ⟨true, s.hostLmemData a w⟩ := by
  rw [hostRead, if_neg (by omega), if_pos (by omega), Nat.add_sub_cancel_left, if_pos hok]

theorem State.hostWrite_lmem (hok : s.hostLmemOk a w = true) :
    s.hostWrite (0x400000 + a) w data = some (s.memWrite a w.bytes data) := by
  rw [hostWrite, if_neg (by omega), if_pos (by omega), Nat.add_sub_cancel_left, if_pos hok]

/-- Where the condition of its window fails, or the offset lies in neither window, an access gets ERROR with data 0,
and nothing but the response changes (R77 to R80). -/
theorem State.hostAccess_refused (hoff : off < 0x800000) (hcsr : off < 0x100 → hostCsrOk off w = false)
    (hlmem : 0x400000 ≤ off → s.hostLmemOk (off - 0x400000) w = false) :
    s.hostAccess (.read (s.params.blockBase + off) w) = { s with hostResp := some ⟨false, 0⟩ } ∧
      s.hostAccess (.write (s.params.blockBase + off) w data) = { s with hostResp := some ⟨false, 0⟩ } := by
  have hread : s.hostRead off w = errorResp := by
    unfold hostRead
    split_ifs <;> simp_all
  have hwrite : s.hostWrite off w data = none := by
    unfold hostWrite
    split_ifs <;> simp_all
  rw [s.hostAccess_read w hoff, s.hostAccess_write w data hoff, hread, hwrite]
  exact ⟨rfl, rfl⟩

/-- A good write to the LMEM window stores its low bytes and answers OK with data 0 (R79; log 11). -/
theorem State.hostAccess_write_lmem (ha : a < 0x400000) (hok : s.hostLmemOk a w = true) :
    s.hostAccess (.write (s.params.blockBase + 0x400000 + a) w data) =
      (s.memWrite a w.bytes data).respond ⟨true, 0⟩ := by
  rw [Nat.add_assoc, s.hostAccess_write w data (by omega), s.hostWrite_lmem data hok]

end access

/-! ### The statements about memory and the host -/

/-- Settles O52: each byte of the stored word, then the wider reads from the bytes. -/
theorem wordsAreLittleEndian : Obligations.WordsAreLittleEndian := by
  intro s a v
  have byte (i : Nat) (hi : i < 4) : (s.memWrite a 4 v).readByte (a + i) = v.extractLsb' (8 * i) 8 :=
    s.readByte_memWrite a v hi (Nat.le_refl 4)
  have b0 := byte 0 (by decide)
  have b1 := byte 1 (by decide)
  have b2 := byte 2 (by decide)
  have b3 := byte 3 (by decide)
  exact ⟨b0, b1, b2, b3, State.read16_eq_extract _ _ v b0 b1, State.read16_eq_extract _ _ v b2 b3,
    State.read32_eq _ _ v b0 b1 b2 b3, s.sameMemoryOutside_memWrite a v (Nat.le_refl 4)⟩

/-- Settles O53: the access's condition is R79's; where it holds the bytes are read or stored, and else it is refused. -/
theorem hostReachesLmemOnlyWhenIdle : Obligations.HostReachesLmemOnlyWhenIdle := by
  intro s a w data ha
  refine ⟨fun good => ?_, fun good => ?_, fun bad => ?_⟩
  · have hok := (s.hostLmemOk_iff a w).2 good
    rw [Nat.add_assoc, s.hostAccess_read w (by omega), s.hostRead_lmem hok]
    cases w <;> rfl
  · have hok := (s.hostLmemOk_iff a w).2 good
    rw [s.hostAccess_write_lmem data ha hok]
    exact ⟨fun i hi => s.readByte_memWrite a data hi w.bytes_le_four, rfl,
      s.sameMemoryOutside_memWrite a data w.bytes_le_four, rfl⟩
  · rw [Nat.add_assoc]
    refine s.hostAccess_refused data (by omega) (fun h => by omega) fun _ => ?_
    rw [Nat.add_sub_cancel_left, ← Bool.not_eq_true, s.hostLmemOk_iff]
    exact bad

/-- Settles O54: a good access to the register window by R80, the refusals of the other offsets, and the accesses that
are not the engine's. -/
theorem hostReachesCsrsByAlignedWords : Obligations.HostReachesCsrsByAlignedWords := by
  refine ⟨fun s off w data hoff => ⟨fun hreg hw hal => ?_, fun hbad => ?_⟩, fun s addr w data hout => ?_⟩
  · have hok := (hostCsrOk_iff off w).2 ⟨hw, hal⟩
    rw [s.hostAccess_read w hoff, s.hostAccess_write w data hoff, s.hostRead_csr hreg hok,
      s.hostWrite_csr data hreg hok]
    exact ⟨rfl, rfl⟩
  · refine s.hostAccess_refused data hoff (fun hreg => ?_) fun hwin => s.hostLmemOk_of_ge w ?_
    · obtain ⟨-, hnot⟩ | hres | hend := hbad
      · rwa [← Bool.not_eq_true, hostCsrOk_iff]
      · omega
      · omega
    · omega
  · simp [State.hostAccess, State.windowOffset_eq_none hout]

end Sys2Proof.Machine
end

section
/-! SUPPORT. The decoder and the encoder undo each other (R112), and the words the decoder refuses (R113): a word is the
sequence of its fields, and a row's mask says which opcode and which z bits it has. -/

namespace Sys2Proof

/-! ### A word is the sequence of its fields -/

/-- A field's bits stand at their places in the word, with 0 elsewhere. -/
theorem getElem_placeField_extractLsb' (w : Word) (lo n : Nat) {k : Nat} (hk : k < 32) :
    (placeField (w.extractLsb' lo n) lo)[k] = (decide (lo ≤ k ∧ k < lo + n) && w[k]) := by
  by_cases hlo : lo ≤ k
  · have hn : k - lo < n ↔ k < lo + n := by omega
    simp [placeField, hlo, hn, hk, show ¬k < lo by omega, BitVec.getLsbD_eq_getElem]
  · simp [placeField, hlo, show k < lo by omega]

/-- A placed field reads back. -/
theorem extractLsb'_placeField {n lo : Nat} (v : BitVec n) (h : lo + n ≤ 32) :
    (placeField v lo).extractLsb' lo n = v := by
  ext j hj
  simp [placeField, show lo + j < 32 by omega, BitVec.getLsbD_eq_getElem, hj]

/-- A placed field leaves 0 at the places beside it. -/
theorem extractLsb'_placeField_disjoint {n lo m hi : Nat} (v : BitVec n) (h : lo + n ≤ hi ∨ hi + m ≤ lo) :
    (placeField v lo).extractLsb' hi m = 0#m := by
  ext j hj
  obtain hle | hle := h
  · simp [placeField, BitVec.getLsbD_of_ge v (hi + j - lo) (by omega)]
  · simp [placeField, show hi + j < lo by omega]

/-- Two adjacent fields are one longer field. -/
theorem placeField_join (w : Word) (lo m n : Nat) :
    placeField (w.extractLsb' (lo + n) m) (lo + n) ||| placeField (w.extractLsb' lo n) lo =
      placeField (w.extractLsb' lo (n + m)) lo := by
  ext j hj
  have hrange : (lo + n ≤ j ∧ j < lo + n + m ∨ lo ≤ j ∧ j < lo + n) ↔ lo ≤ j ∧ j < lo + (n + m) := by omega
  simp only [BitVec.getElem_or, getElem_placeField_extractLsb', ← Bool.and_or_distrib_right, ← Bool.decide_or, hrange]

theorem placeField_zero {n : Nat} (lo : Nat) : placeField (0 : BitVec n) lo = 0#32 := by simp [placeField]

theorem placeField_whole (w : Word) : placeField (w.extractLsb' 0 32) 0 = w := by
  ext j hj
  rw [getElem_placeField_extractLsb' w 0 32 hj]
  simp only [Nat.zero_le, Nat.zero_add, hj, true_and, decide_true, Bool.true_and]

/-- A word whose low bits are 0 is the field above them. -/
theorem placeField_of_low_zero {w : Word} (lo m : Nat) (hm : lo + m = 32) (hz : w.extractLsb' 0 lo = 0) :
    placeField (w.extractLsb' lo m) lo = w := by
  have hjoin := placeField_join w 0 m lo
  rwa [hm, placeField_whole, Nat.zero_add, hz, placeField_zero, BitVec.or_zero] at hjoin

/-- The four bytes of a word put together again (R71). -/
theorem wordOfBytes_byteOfWord (w : Word) :
    wordOfBytes (byteOfWord w 0) (byteOfWord w 1) (byteOfWord w 2) (byteOfWord w 3) = w := by
  simp only [wordOfBytes, byteOfWord, Nat.reduceMul]
  rw [BitVec.or_comm (placeField _ 0), placeField_join w 0 8 8, BitVec.or_comm (placeField _ 0),
    placeField_join w 0 8 16, BitVec.or_comm (placeField _ 0), placeField_join w 0 8 24, placeField_whole]

/-! ### Each format of a word's own fields is the word, when its z bits are 0 (R102 to R108) -/

section formats

variable {w : Word} {op : BitVec 6} (hop : w.extractLsb' 26 6 = op)
include hop

theorem formatN_fields (hz : w.extractLsb' 0 26 = 0) : formatN op = w := by
  rw [formatN, ← hop, placeField_of_low_zero 26 6 rfl hz]

theorem formatC_fields : formatC op (fieldCsrw w) (fieldImm20 w) = w := by
  simp only [formatC, fieldCsrw, fieldImm20, BitVec.ofFin_toFin, ← hop]
  rw [placeField_join w 20 6 6, placeField_join w 0 12 20, placeField_whole]

theorem formatCR_fields (hz : w.extractLsb' 0 16 = 0) : formatCR op (fieldRd w) (fieldCsrr w) = w := by
  simp only [formatCR, fieldRd, fieldCsrr, BitVec.ofFin_toFin, ← hop]
  rw [placeField_join w 22 6 4, placeField_join w 16 10 6, placeField_of_low_zero 16 16 rfl hz]

theorem formatI_fields (hz : w.extractLsb' 8 14 = 0) : formatI op (fieldRd w) (fieldImm8 w) = w := by
  simp only [formatI, fieldRd, fieldImm8, BitVec.ofFin_toFin, ← hop]
  have hjoin := placeField_join w 8 10 14
  rw [hz, placeField_zero, BitVec.or_zero] at hjoin
  rw [placeField_join w 22 6 4, hjoin, placeField_join w 0 24 8, placeField_whole]

theorem formatM_fields : formatM op (fieldRd w) (fieldAddr22 w) = w := by
  simp only [formatM, fieldRd, fieldAddr22, BitVec.ofFin_toFin, ← hop]
  rw [placeField_join w 22 6 4, placeField_join w 0 10 22, placeField_whole]

theorem formatR_fields (hz : w.extractLsb' 0 14 = 0) : formatR op (fieldRd w) (fieldRs1 w) (fieldRs2 w) = w := by
  simp only [formatR, fieldRd, fieldRs1, fieldRs2, BitVec.ofFin_toFin, ← hop]
  rw [placeField_join w 22 6 4, placeField_join w 18 10 4, placeField_join w 14 14 4,
    placeField_of_low_zero 14 18 rfl hz]

theorem formatR1_fields (hz : w.extractLsb' 0 18 = 0) : formatR1 op (fieldRd w) (fieldRs1 w) = w := by
  simp only [formatR1, fieldRd, fieldRs1, BitVec.ofFin_toFin, ← hop]
  rw [placeField_join w 22 6 4, placeField_join w 18 10 4, placeField_of_low_zero 18 14 rfl hz]

end formats

/-! ### The rows of the opcode map: their codes and their z bits (R111) -/

/-- The opcode of a row: the top six bits of its match. -/
def Op.code (op : Op) : BitVec 6 := (opMatch op).extractLsb' 26 6

/-- The z bits of a row's format: the lowest one's place, and how many there are (R102 to R108). -/
def Op.zField : Op → Nat × Nat
  | .nop | .halt | .eval | .split | .lwgt | .lcomb | .recover => (0, 26)
  | .csrwi | .ldb | .stb => (0, 0)
  | .csrr => (0, 16)
  | .gldi => (8, 14)
  | .gxor | .gmul | .gdiv | .hstep => (0, 14)
  | .gexp | .glog => (0, 18)

/-- The z bits of the row's format in a word. -/
def Op.zBits (op : Op) (w : Word) : BitVec op.zField.2 := w.extractLsb' op.zField.1 op.zField.2

theorem opOfCode_code (op : Op) : opOfCode op.code = some op := by cases op <;> rfl

/-- R113 (a) and (b) name the opcodes without a row. -/
theorem opOfCode_eq_none_iff (c : BitVec 6) :
    opOfCode c = none ↔ c.toNat = 0 ∨ c.toNat = 0x0E ∨ c.toNat = 0x0F ∨ 0x15 ≤ c.toNat := by
  revert c; decide

theorem eq_code_of_opOfCode_eq_some {c : BitVec 6} {op : Op} (h : opOfCode c = some op) : c = op.code := by
  cases op <;> revert c <;> decide

/-- The mask of a row is 1 on the opcode and on the z bits. -/
theorem opMask_eq (op : Op) : opMask op =
    placeField ((BitVec.allOnes 32).extractLsb' 26 6) 26 |||
      placeField ((BitVec.allOnes 32).extractLsb' op.zField.1 op.zField.2) op.zField.1 := by
  cases op <;> decide

/-- The match of a row is its code, and 0 elsewhere. -/
theorem opMatch_eq (op : Op) : opMatch op = placeField op.code 26 := by
  cases op <;> decide

/-- Masking a word with a field's bits. -/
theorem and_placeField_ones (w : Word) (lo n : Nat) :
    w &&& placeField ((BitVec.allOnes 32).extractLsb' lo n) lo = placeField (w.extractLsb' lo n) lo := by
  ext j hj
  rw [BitVec.getElem_and, getElem_placeField_extractLsb' _ _ _ hj, getElem_placeField_extractLsb' _ _ _ hj,
    BitVec.getElem_allOnes, Bool.and_true, Bool.and_comm]

/-- A row's mask covers the opcode and the z bits, and its match has the row's code and no z bit. -/
theorem and_opMask_eq_opMatch_iff (op : Op) (w : Word) :
    w &&& opMask op = opMatch op ↔ w.extractLsb' 26 6 = op.code ∧ op.zBits w = 0 := by
  rw [opMask_eq, opMatch_eq, BitVec.and_or_distrib_left, and_placeField_ones, and_placeField_ones]
  change placeField _ 26 ||| placeField (op.zBits w) _ = _ ↔ _
  have hbound : op.zField.1 + op.zField.2 ≤ 26 := by cases op <;> decide
  constructor
  · intro h
    have hop := congrArg (BitVec.extractLsb' 26 6) h
    have hzero := congrArg (BitVec.extractLsb' op.zField.1 op.zField.2) h
    rw [BitVec.extractLsb'_or, extractLsb'_placeField _ (by omega), extractLsb'_placeField _ (by omega),
      extractLsb'_placeField_disjoint _ (by omega), BitVec.or_zero] at hop
    rw [BitVec.extractLsb'_or, extractLsb'_placeField _ (by omega), extractLsb'_placeField_disjoint _ (by omega),
      extractLsb'_placeField_disjoint _ (by omega), BitVec.zero_or] at hzero
    exact ⟨hop, hzero⟩
  · rintro ⟨hop, hzero⟩
    rw [hop, hzero, placeField_zero, BitVec.or_zero]

/-! ### The decoder, row by row (R112) -/

/-- A word with a row's opcode is the row's command when its z bits are 0, and refused otherwise. -/
theorem decodeWord_of_code {w : Word} {op : Op} (h : w.extractLsb' 26 6 = op.code) :
    decodeWord w = if op.zBits w = 0 then opFields op w else .error .zeroBitSet := by
  simp only [decodeWord, h, opOfCode_code, and_opMask_eq_opMatch_iff, true_and]

/-- A word whose opcode has no row is refused. -/
theorem decodeWord_of_reserved {w : Word} (h : opOfCode (w.extractLsb' 26 6) = none) :
    decodeWord w = .error .reservedOpcode := by
  simp only [decodeWord, h]

/-- A decoded word has the opcode of a row, no z bit of it, and the row's fields. -/
theorem decodeWord_eq_ok_iff {w : Word} {i : Instr} : decodeWord w = .ok i ↔
    ∃ op : Op, w.extractLsb' 26 6 = op.code ∧ op.zBits w = 0 ∧ opFields op w = .ok i := by
  constructor
  · intro h
    cases hop : opOfCode (w.extractLsb' 26 6) with
    | none => simp [decodeWord_of_reserved hop] at h
    | some op =>
      have hcode := eq_code_of_opOfCode_eq_some hop
      rw [decodeWord_of_code hcode] at h
      split at h
      · next hz => exact ⟨op, hcode, hz, h⟩
      · cases h
  · rintro ⟨op, hcode, hz, hi⟩
    rw [decodeWord_of_code hcode, if_pos hz, hi]

/-! ### Decoding after encoding -/

/-- Every command's word matches the command's row of R111. -/
theorem encodedRow (i : Instr) : Laws.EncodedRow.Statement i := by
  cases i with
  | nop => exact Laws.EncodedRow.nop
  | halt => exact Laws.EncodedRow.halt
  | csrwi csr imm20 => exact Laws.EncodedRow.csrwi csr imm20
  | csrr rd csr => exact Laws.EncodedRow.csrr rd csr
  | gldi rd imm8 => exact Laws.EncodedRow.gldi rd imm8
  | ldb rd addr22 => exact Laws.EncodedRow.ldb rd addr22
  | stb rs addr22 => exact Laws.EncodedRow.stb rs addr22
  | gxor rd rs1 rs2 => exact Laws.EncodedRow.gxor rd rs1 rs2
  | gmul rd rs1 rs2 => exact Laws.EncodedRow.gmul rd rs1 rs2
  | gdiv rd rs1 rs2 => exact Laws.EncodedRow.gdiv rd rs1 rs2
  | gexp rd rs1 => exact Laws.EncodedRow.gexp rd rs1
  | glog rd rs1 => exact Laws.EncodedRow.glog rd rs1
  | hstep rd rs1 rs2 => exact Laws.EncodedRow.hstep rd rs1 rs2
  | eval => exact Laws.EncodedRow.eval
  | split => exact Laws.EncodedRow.split
  | lwgt => exact Laws.EncodedRow.lwgt
  | lcomb => exact Laws.EncodedRow.lcomb
  | recover => exact Laws.EncodedRow.recover

/-- The fields of a well-formed command's word are the command's operands (R101 to R110). -/
theorem opFields_encodeWord {i : Instr} (h : i.wellFormed = true) :
    opFields (Laws.EncodedRow.rowOf i) (encodeWord i) = .ok i := by
  cases i with
  | nop | halt | eval | split | lwgt | lcomb | recover => rfl
  | csrwi csr imm20 =>
    have hcsr : csrwIndexOk csr = true := h
    simp only [opFields, Laws.EncodedRow.rowOf, encodeWord, fieldCsrw_formatC, fieldImm20_formatC, hcsr, if_true]
  | csrr rd csr =>
    have hcsr : csrrIndexOk csr = true := h
    simp only [opFields, Laws.EncodedRow.rowOf, encodeWord, fieldRd_formatCR, fieldCsrr_formatCR, hcsr, if_true]
  | gldi rd imm8 => simp only [opFields, Laws.EncodedRow.rowOf, encodeWord, fieldRd_formatI, fieldImm8_formatI]
  | ldb rd addr22 | stb rs addr22 =>
    simp only [opFields, Laws.EncodedRow.rowOf, encodeWord, fieldRd_formatM, fieldAddr22_formatM]
  | gxor rd rs1 rs2 | gmul rd rs1 rs2 | gdiv rd rs1 rs2 | hstep rd rs1 rs2 =>
    simp only [opFields, Laws.EncodedRow.rowOf, encodeWord, fieldRd_formatR, fieldRs1_formatR, fieldRs2_formatR]
  | gexp rd rs1 | glog rd rs1 =>
    simp only [opFields, Laws.EncodedRow.rowOf, encodeWord, fieldRd_formatR1, fieldRs1_formatR1]

theorem decodeWord_encodeWord_of_wellFormed {i : Instr} (h : i.wellFormed = true) :
    decodeWord (encodeWord i) = .ok i := by
  rw [Machine.decodeWord_encodeWord (encodedRow i), opFields_encodeWord h]

/-- The decoder on bytes reads a word's four bytes as the word, and leaves the rest (R71, R100). -/
theorem decode_bytesOfWord_append {w : Word} {i : Instr} (h : decodeWord w = .ok i) (rest : List Byte) :
    decode (bytesOfWord w ++ rest) = .ok (i, rest) := by
  simp only [bytesOfWord, List.cons_append, List.nil_append, decode, wordOfBytes_byteOfWord, h]

/-- Settles O1: the word matches its row, and the row's fields of it are the operands. -/
theorem everyWellFormedCommandDecodesBack : Obligations.EveryWellFormedCommandDecodesBack := by
  intro i hwf
  have hword := decodeWord_encodeWord_of_wellFormed hwf
  exact ⟨hword, decode_bytesOfWord_append hword⟩

/-! ### Encoding after decoding -/

/-- A command read from a word's fields is well-formed, and encodes to the word when no z bit is set (R102 to R111). -/
theorem encodeWord_of_opFields {w : Word} {op : Op} {i : Instr} (hcode : w.extractLsb' 26 6 = op.code)
    (hz : op.zBits w = 0) (h : opFields op w = .ok i) : i.wellFormed = true ∧ encodeWord i = w := by
  cases op with
  | nop | halt | eval | split | lwgt | lcomb | recover =>
    cases h
    exact ⟨rfl, formatN_fields hcode hz⟩
  | csrwi =>
    simp only [opFields] at h
    split at h
    · next hcsr => cases h; exact ⟨hcsr, formatC_fields hcode⟩
    · cases h
  | csrr =>
    simp only [opFields] at h
    split at h
    · next hcsr => cases h; exact ⟨hcsr, formatCR_fields hcode hz⟩
    · cases h
  | gldi =>
    cases h
    exact ⟨rfl, formatI_fields hcode hz⟩
  | ldb | stb =>
    cases h
    exact ⟨rfl, formatM_fields hcode⟩
  | gxor | gmul | gdiv | hstep =>
    cases h
    exact ⟨rfl, formatR_fields hcode hz⟩
  | gexp | glog =>
    cases h
    exact ⟨rfl, formatR1_fields hcode hz⟩

/-- Settles O2: each format of the word's own fields is the word. -/
theorem everyDecodedWordIsItsEncoding : Obligations.EveryDecodedWordIsItsEncoding := by
  intro w i h
  obtain ⟨op, hcode, hz, hfields⟩ := decodeWord_eq_ok_iff.1 h
  exact encodeWord_of_opFields hcode hz hfields

/-! ### The illegal words (R113) -/

/-- A word with a row's opcode is refused for a z bit, or for its fields. -/
theorem decodeWord_refused_iff {w : Word} {op : Op} (h : w.extractLsb' 26 6 = op.code) :
    (∃ e, decodeWord w = .error e) ↔ op.zBits w ≠ 0 ∨ ∃ e, opFields op w = .error e := by
  rw [decodeWord_of_code h]
  split
  · next hz => simp only [hz, ne_eq, not_true_eq_false, false_or]
  · next hz => exact iff_of_true ⟨_, rfl⟩ (.inl hz)

theorem opFields_csrwi_refused_iff (w : Word) : (∃ e, opFields .csrwi w = .error e) ↔
    (w.extractLsb' 20 6).toNat < 8 ∨ 16 < (w.extractLsb' 20 6).toNat := by
  have hval : (fieldCsrw w).val = (w.extractLsb' 20 6).toNat := rfl
  simp only [opFields, csrwIndexOk, hval, Bool.and_eq_true, decide_eq_true_eq]
  split
  · exact iff_of_false nofun (by omega)
  · exact iff_of_true ⟨_, rfl⟩ (by omega)

theorem opFields_csrr_refused_iff (w : Word) :
    (∃ e, opFields .csrr w = .error e) ↔ 17 < (w.extractLsb' 16 6).toNat := by
  have hval : (fieldCsrr w).val = (w.extractLsb' 16 6).toNat := rfl
  simp only [opFields, csrrIndexOk, hval, decide_eq_true_eq]
  split
  · exact iff_of_false nofun (by omega)
  · exact iff_of_true ⟨_, rfl⟩ (by omega)

/-- A ready engine that fetches a word which the decoder refuses takes the fault IllegalCommand (R113, R130). -/
theorem Machine.step_of_illegal {s : Machine.State} {e : Illegal} (hready : Machine.EngineReady s)
    (hin : s.inRange s.pc.toNat 4 = true) (he : decodeWord (s.read32 s.pc.toNat) = .error e) :
    Machine.step s = .next (s.takeFault ⟨.illegalCommand, s.read32 s.pc.toNat⟩) := by
  obtain ⟨hsched, hrst, hbusy, hjob⟩ := hready
  have hfetch : s.fetch = .error ⟨.illegalCommand, s.read32 s.pc.toNat⟩ := by
    simp only [Machine.State.fetch, hin, he, if_true]
  rw [Machine.step_of_nil hsched]
  simp [Machine.engineTurn, hrst, hbusy, hjob, hfetch]

/-- Settles O3: by the opcode's row. Without one the word is one of (a) and (b); with one it is refused for a z bit of the
row's format (c), or for a CSR index out of range (d, e). -/
theorem illegalWordsAreTheListedOnesAndFault : Obligations.IllegalWordsAreTheListedOnesAndFault := by
  refine ⟨fun w => ?listed, fun s w e hready hin hw he => ?faults⟩
  case faults =>
    subst hw
    exact ⟨_, Machine.step_of_illegal hready hin he, Machine.faulted_takeFault s _⟩
  case listed =>
    cases hop : opOfCode (w.extractLsb' 26 6) with
    | none =>
      refine iff_of_true ⟨_, decodeWord_of_reserved hop⟩ ?_
      have hreserved := (opOfCode_eq_none_iff _).1 hop
      tauto
    | some op =>
      have hcode := eq_code_of_opOfCode_eq_some hop
      rw [decodeWord_refused_iff hcode, hcode]
      cases op with
      | csrwi => rw [opFields_csrwi_refused_iff]; simp [Op.code, opMatch, Op.zBits, Op.zField]
      | csrr => rw [opFields_csrr_refused_iff]; simp [Op.code, opMatch, Op.zBits, Op.zField]
      | _ => simp [opFields, Op.code, opMatch, Op.zBits, Op.zField]

/-! ### The worked encodings (R118) -/

/-- Settles O4: the encoder gives each word of the table, and these commands decode back; each illegal word is listed in
R113. -/
theorem workedEncodingsDecode : Obligations.WorkedEncodingsDecode := by
  refine ⟨fun p hp => ?commands, fun w hw => ?illegal⟩
  case commands =>
    have hword : encodeWord p.2 = p.1 ∧ p.2.wellFormed = true := by revert p; decide
    obtain ⟨henc, hwf⟩ := hword
    exact ⟨henc, henc ▸ decodeWord_encodeWord_of_wellFormed hwf⟩
  case illegal =>
    obtain ⟨listed, -⟩ := illegalWordsAreTheListedOnesAndFault
    rw [listed]
    fin_cases hw <;> simp

end Sys2Proof
end

section
/-! SUPPORT. The step (R130; log 2): the fetch and the engine's turn case by case, and what each event of the schedule
does. -/

namespace Sys2Proof.Machine

section

variable {s : State}

/-! ### The fetch -/

theorem State.fetch_of_decoded {i : Instr} (hin : s.inRange s.pc.toNat 4 = true)
    (hi : decodeWord (s.read32 s.pc.toNat) = .ok i) : s.fetch = .ok i := by
  simp only [fetch, hin, hi, if_true]

theorem State.fetch_of_illegal {e : Illegal} (hin : s.inRange s.pc.toNat 4 = true)
    (he : decodeWord (s.read32 s.pc.toNat) = .error e) : s.fetch = .error ⟨.illegalCommand, s.read32 s.pc.toNat⟩ := by
  simp only [fetch, hin, he, if_true]

theorem State.fetch_of_outside (hout : s.params.lmemBytes < s.pc.toNat + 4) : s.fetch = .error ⟨.fetchRange, s.pc⟩ := by
  have hin : ¬s.inRange s.pc.toNat 4 = true := by rw [s.inRange_iff]; omega
  simp only [fetch, if_neg hin]

/-! ### The engine's turn -/

theorem engineTurn_of_reset (hrst : s.rstLow = true) : engineTurn s = .next s := if_pos (.inl hrst)

theorem engineTurn_of_idle (hbusy : s.busy = false) : engineTurn s = .next s := if_pos (.inr hbusy)

theorem engineTurn_of_waiting {j : GenJob} (hrst : s.rstLow = false) (hbusy : s.busy = true)
    (hjob : s.inflight = some j) : engineTurn s = exec .split s := by
  simp [engineTurn, hrst, hbusy, hjob]

theorem engineTurn_of_fetch {i : Instr} (hrst : s.rstLow = false) (hbusy : s.busy = true) (hjob : s.inflight = none)
    (hf : s.fetch = .ok i) : engineTurn s = exec i s := by
  simp [engineTurn, hrst, hbusy, hjob, hf]

theorem engineTurn_of_fetch_error {t : Trap} (hrst : s.rstLow = false) (hbusy : s.busy = true)
    (hjob : s.inflight = none) (hf : s.fetch = .error t) : engineTurn s = .next (s.takeFault t) := by
  simp [engineTurn, hrst, hbusy, hjob, hf]

/-- SPLIT with nothing in flight is its request, and with a SPLIT in flight that one's step at the RNG (R24; log 7). -/
theorem exec_split_of_none (hjob : s.inflight = none) : exec .split s = .next s.splitRequest := by
  simp [exec, execSplit, hjob]

theorem exec_split_of_some {j : GenJob} (hjob : s.inflight = some j) : exec .split s = .next (s.splitAnswer j) := by
  simp [exec, execSplit, hjob]

end

/-! ### The events of a schedule -/

theorem step_event (s : State) (ev : Event) (rest : List Event) :
    step (s.setSchedule (ev :: rest)) = handleEvent ev (s.setSchedule rest) :=
  step_of_cons (s.setSchedule_schedule (ev :: rest))

theorem step_engine (s : State) (rest : List Event) :
    step (s.setSchedule (.engine :: rest)) = engineTurn (s.setSchedule rest) := step_event s .engine rest

/-! ### The statements about the step -/

/-- Settles O11: each clause is the turn's case at an empty schedule, or what the event's function says. -/
theorem stepRunsTheDecodedCommand : Obligations.StepRunsTheDecodedCommand := by
  refine ⟨?command, ?scheduledCommand, ?waiting, ?scheduledWaiting, ?illegal, ?outside, ?idle, ?host, ?srst, ?rst, ?low⟩
  case command =>
    rintro s i ⟨hsch, hrst, hbusy, hjob⟩ hin hi
    rw [step_of_nil hsch, engineTurn_of_fetch hrst hbusy hjob (State.fetch_of_decoded hin hi)]
  case scheduledCommand =>
    rintro s i rest ⟨-, hrst, hbusy, hjob⟩ hin hi
    exact (step_engine s rest).trans (engineTurn_of_fetch hrst hbusy hjob (State.fetch_of_decoded hin hi))
  case waiting =>
    intro s j hsch hrst hbusy hjob
    rw [step_of_nil hsch, engineTurn_of_waiting hrst hbusy hjob]
  case scheduledWaiting =>
    intro s j rest hrst hbusy hjob
    exact (step_engine s rest).trans (engineTurn_of_waiting hrst hbusy hjob)
  case illegal =>
    rintro s rest e ⟨-, hrst, hbusy, hjob⟩ hin he
    have hturn : engineTurn (s.setSchedule rest) = _ :=
      engineTurn_of_fetch_error hrst hbusy hjob (State.fetch_of_illegal hin he)
    exact ⟨_, (step_engine s rest).trans hturn, faulted_takeFault _ _⟩
  case outside =>
    rintro s rest ⟨-, hrst, hbusy, hjob⟩ hout
    have hturn : engineTurn (s.setSchedule rest) = _ :=
      engineTurn_of_fetch_error hrst hbusy hjob (State.fetch_of_outside hout)
    exact ⟨_, (step_engine s rest).trans hturn, faulted_takeFault _ _⟩
  case idle =>
    intro s rest hbusy
    exact (step_engine s rest).trans (engineTurn_of_idle hbusy)
  case host =>
    exact fun s op rest => step_event s (.host op) rest
  case srst =>
    exact fun s rest => step_event s .srstInFlight rest
  case rst =>
    exact fun s rest => ⟨step_event s .rstLow rest, step_event s .rstHigh rest⟩
  case low =>
    intro s rest hrst
    refine ⟨fun hsch => ?_, ?_⟩
    · rw [step_of_nil hsch, engineTurn_of_reset hrst]
    · exact (step_engine s rest).trans (engineTurn_of_reset hrst)

/-- Settles O12: the fetch fails, and its fault is taken. -/
theorem fetchOutsideLmemFaults : Obligations.FetchOutsideLmemFaults := by
  rintro s ⟨hsch, hrst, hbusy, hjob⟩ hout
  refine ⟨s.takeFault ⟨.fetchRange, s.pc⟩, ?_, faulted_takeFault s _⟩
  rw [step_of_nil hsch, engineTurn_of_fetch_error hrst hbusy hjob (State.fetch_of_outside hout)]

end Sys2Proof.Machine
end

section
/-! SUPPORT. A run of the engine alone (R139): each step stops it, moves PC on by 4, or leaves a SPLIT waiting, so that
the commands left before the end of LMEM bound the run. -/

namespace Sys2Proof.Machine

open Host (Outcome)

/-! ### One step of a run -/

/-- Only the engine moves: the schedule is empty and `rst_n` is high, and a SPLIT in flight was fetched from LMEM
(R130). -/
structure State.RunsAlone (s : State) : Prop where
  schedule : s.schedule = []
  rstHigh : s.rstLow = false
  fetched : s.inflight.isSome = true → s.pc.toNat + 4 ≤ s.params.lmemBytes

/-- What a step of a run makes of `s`: the run is over, the next command is at PC + 4, or a SPLIT at PC waits. -/
inductive RunStep (s t : State) : Prop where
  | stopped (hbusy : t.busy = false) (hjob : t.inflight = none)
  | advanced (hbusy : t.busy = true) (hjob : t.inflight = none) (hfit : s.pc.toNat + 4 ≤ s.params.lmemBytes)
      (hpc : t.pc.toNat = s.pc.toNat + 4)
  | waiting (hbusy : t.busy = true) (hjob : t.inflight.isSome = true) (hfit : s.pc.toNat + 4 ≤ s.params.lmemBytes)
      (hpc : t.pc = s.pc)

/-- The outcome is a step of a run from `s`, and it leaves the surroundings alone. -/
def RunsOn (s : State) (o : Outcome State Fault Refusal) : Prop :=
  ∃ t, o = .next t ∧ SameSurroundings s t ∧ RunStep s t

section

variable {s t : State}

theorem EngineReady.runsAlone (h : EngineReady s) : s.RunsAlone := by
  obtain ⟨hsch, hrst, -, hjob⟩ := h
  exact ⟨hsch, hrst, by simp [hjob]⟩

theorem EngineReady.busy (h : EngineReady s) : s.busy = true := by
  obtain ⟨-, -, hbusy, -⟩ := h
  exact hbusy

/-- The engine still runs alone after a step of a run. -/
theorem State.RunsAlone.of_runStep (h : s.RunsAlone) (hsame : SameSurroundings s t) (hstep : RunStep s t) :
    t.RunsAlone := by
  obtain ⟨hparams, hrst, -, hsch, -⟩ := hsame
  refine ⟨hsch.trans h.schedule, hrst.trans h.rstHigh, fun hwait => ?_⟩
  cases hstep with
  | stopped _ hjob => simp [hjob] at hwait
  | advanced _ hjob => simp [hjob] at hwait
  | waiting _ _ hfit hpc => rwa [hpc, hparams]

/-- PC + 4 does not wrap where the command at PC lies in LMEM (R7, R23). -/
theorem toNat_add_four_of_le {pc : Word} {p : Config.Params} (h : pc.toNat + 4 ≤ p.lmemBytes) :
    (pc + 4).toNat = pc.toNat + 4 := by
  have hsize := (lmemBytes_bounds p).2
  have four : (4 : Word).toNat = 4 := rfl
  rw [BitVec.toNat_add, four]
  omega

/-- Taking a fault ends the run, also from a state whose answer of the RNG has been taken (R255). -/
theorem RunsOn.takeFault {u : State} (hsame : SameSurroundings s u) (trap : Trap) :
    RunsOn s (.next (u.takeFault trap)) :=
  ⟨_, rfl, hsame, .stopped rfl rfl⟩

/-- A command that completes with nothing in flight moves PC on (R130). -/
theorem RunsOn.advanced (hbusy : s.busy = true) (hfit : s.pc.toNat + 4 ≤ s.params.lmemBytes)
    (hsame : SameSurroundings s t) (hbusy' : t.busy = s.busy) (hjob : t.inflight = none) (hpc : t.pc = s.pc + 4) :
    RunsOn s (.next t) :=
  ⟨t, rfl, hsame, .advanced (hbusy'.trans hbusy) hjob hfit (hpc ▸ toNat_add_four_of_le hfit)⟩

theorem RunsOn.of_completesOrFaults (hbusy : s.busy = true) (hjob : s.inflight = none)
    (hfit : s.pc.toNat + 4 ≤ s.params.lmemBytes) {o : Outcome State Fault Refusal} (ho : CompletesOrFaults s o) :
    RunsOn s o := by
  cases ho with
  | completed hc _ =>
    obtain ⟨hpc, ⟨hbusy', -, -, -, hjob'⟩, -, -, hsame⟩ := hc
    exact .advanced hbusy hfit hsame hbusy' (hjob'.trans hjob) hpc
  | faulted _ => exact .takeFault ⟨rfl, rfl, rfl, rfl, rfl⟩ _

/-- SPLIT's request faults, or waits at the same PC (R188, R191). -/
theorem RunsOn.splitRequest (hbusy : s.busy = true) (hfit : s.pc.toNat + 4 ≤ s.params.lmemBytes) :
    RunsOn s (.next s.splitRequest) := by
  rcases s.splitRequest_cases with ⟨trap, -, heq⟩ | ⟨-, heq⟩ <;> rw [heq]
  · exact .takeFault ⟨rfl, rfl, rfl, rfl, rfl⟩ trap
  · exact ⟨_, rfl, ⟨rfl, rfl, rfl, rfl, rfl⟩, .waiting hbusy rfl hfit rfl⟩

/-- SPLIT at the RNG faults, completes, or waits on (R188, R264; log 3). -/
theorem RunsOn.splitAnswer (hbusy : s.busy = true) (hfit : s.pc.toNat + 4 ≤ s.params.lmemBytes) {j : GenJob}
    (hj : s.inflight = some j) : RunsOn s (.next (s.splitAnswer j)) := by
  rcases s.splitAnswer_cases j with ⟨-, heq⟩ | ⟨r, -, -, heq⟩ | ⟨r, -, -, heq⟩ <;> rw [heq]
  · exact .takeFault (by simp [SameSurroundings]) _
  · exact .advanced hbusy hfit (by simp [SameSurroundings]) (by simp) (by simp) (by simp)
  · exact ⟨_, rfl, ⟨rfl, rfl, rfl, rfl, rfl⟩, .waiting hbusy (Option.isSome_iff_exists.2 ⟨j, hj⟩) hfit rfl⟩

/-- A command fetched from LMEM, run with nothing in flight. -/
theorem exec_runsOn (hbusy : s.busy = true) (hjob : s.inflight = none) (hfit : s.pc.toNat + 4 ≤ s.params.lmemBytes)
    (i : Instr) : RunsOn s (exec i s) := by
  by_cases hhalt : i = .halt
  · subst hhalt
    exact ⟨_, rfl, ⟨rfl, rfl, rfl, rfl, rfl⟩, .stopped rfl hjob⟩
  by_cases hsplit : i = .split
  · subst hsplit
    rw [exec_split_of_none hjob]
    exact .splitRequest hbusy hfit
  · exact .of_completesOrFaults hbusy hjob hfit (exec_completesOrFaults s hhalt hsplit)

/-- A step of a running engine that runs alone is a step of a run. -/
theorem State.RunsAlone.step_runsOn (h : s.RunsAlone) (hbusy : s.busy = true) : RunsOn s (step s) := by
  rw [step_of_nil h.schedule]
  rcases engineTurn_cases s with ⟨hrest, -⟩ | ⟨-, -, hwait, heq⟩ | ⟨-, -, hjob, i, hf, heq⟩ | ⟨-, -, -, trap, -, heq⟩
  · simp [h.rstHigh, hbusy] at hrest
  · obtain ⟨j, hj⟩ := Option.isSome_iff_exists.1 hwait
    rw [heq, exec_split_of_some hj]
    exact .splitAnswer hbusy (h.fetched hwait) hj
  · have hfit : s.pc.toNat + 4 ≤ s.params.lmemBytes := by
      by_contra hout
      simp [State.fetch_of_outside (Nat.lt_of_not_le hout)] at hf
    rw [heq]
    exact exec_runsOn hbusy hjob hfit i
  · rw [heq]
    exact .takeFault ⟨rfl, rfl, rfl, rfl, rfl⟩ trap

/-- Settles O21: the invariant keeps `rst_n` high while the engine runs, and a SPLIT in flight inside LMEM. -/
theorem runningPcRisesByFour : Obligations.RunningPcRisesByFour := by
  intro s t hinv hsch hbusy he hbusy'
  have hrst : s.rstLow = false := by
    by_contra hlow
    simp [hinv.resetIdle (by simpa using hlow)] at hbusy
  have halone : s.RunsAlone := ⟨hsch, hrst, fun hwait => (s.inRange_iff _ _).1 (hinv.jobFetched hwait)⟩
  obtain ⟨u, hu, -, hstep⟩ := halone.step_runsOn hbusy
  obtain rfl : u = t := Outcome.next.inj (hu.symm.trans he)
  cases hstep with
  | stopped hidle => simp [hidle] at hbusy'
  | advanced _ hjob _ hpc => exact .inl ⟨hjob, hpc⟩
  | waiting _ hjob _ hpc => exact .inr ⟨hjob, hpc⟩

/-! ### The length of a run -/

theorem core_run_succ (k : Nat) (h : step s = .next t) : Sys2Proof.core.run (k + 1) s = Sys2Proof.core.run k t := by
  have hstep : Sys2Proof.core.step s = .next t := h
  simp only [Host.Core.run, hstep]

/-- A ready engine stops, or comes to a SPLIT that waits, within one step more than the words left in LMEM: each step
that does neither takes one word. -/
theorem EngineReady.exists_run_end (hready : EngineReady s) :
    ∃ (k : Nat) (t : State), k ≤ (s.params.lmemBytes - s.pc.toNat) / 4 + 1 ∧ Sys2Proof.core.run k s = .next t ∧
      (t.busy = false ∨ t.rngWait = true) := by
  induction hn : (s.params.lmemBytes - s.pc.toNat) / 4 using Nat.strong_induction_on generalizing s with
  | h n ih =>
    obtain ⟨t, ht, hsame, hstep⟩ := hready.runsAlone.step_runsOn hready.busy
    have halone := hready.runsAlone.of_runStep hsame hstep
    cases hstep with
    | stopped hidle => exact ⟨1, t, by omega, core_run_succ 0 ht, .inl hidle⟩
    | waiting _ hjob => exact ⟨1, t, by omega, core_run_succ 0 ht, .inr hjob⟩
    | advanced hbusy hjob hfit hpc =>
      have hleft : (t.params.lmemBytes - t.pc.toNat) / 4 + 1 = n := by rw [hsame.1, hpc]; omega
      obtain ⟨k, u, hk, hrun, hend⟩ := ih _ (by omega) ⟨halone.schedule, halone.rstHigh, hbusy, hjob⟩ rfl
      exact ⟨k + 1, u, by omega, (core_run_succ k ht).trans hrun, hend⟩

/-! ### The commands of a run -/

/-- At most this many commands begin from now on: the one at PC, unless it is a SPLIT in flight, and one for each word
of LMEM after it. -/
def State.commandsLeft (s : State) : Nat :=
  if s.busy = true then (s.params.lmemBytes - s.pc.toNat) / 4 + (if s.inflight = none then 1 else 0) else 0

theorem commandsBegun_succ (k : Nat) (h : step s = .next t) :
    commandsBegun (k + 1) s = (if s.busy = true ∧ s.inflight = none then 1 else 0) + commandsBegun k t := by
  simp only [commandsBegun, h]

/-- No command begins while the engine is idle. -/
theorem State.RunsAlone.commandsBegun_of_idle (h : s.RunsAlone) (hbusy : s.busy = false) (k : Nat) :
    commandsBegun k s = 0 := by
  induction k with
  | zero => rfl
  | succ k ih =>
    rw [commandsBegun_succ k ((step_of_nil h.schedule).trans (engineTurn_of_idle hbusy)), ih]
    simp [hbusy]

/-- A step of a run uses up the command it begins. -/
theorem RunStep.commandsLeft_le (hbusy : s.busy = true) (hparams : t.params = s.params) (h : RunStep s t) :
    (if s.inflight = none then 1 else 0) + t.commandsLeft ≤ s.commandsLeft := by
  have hs : s.commandsLeft = (s.params.lmemBytes - s.pc.toNat) / 4 + (if s.inflight = none then 1 else 0) :=
    if_pos hbusy
  rw [hs]
  cases h with
  | stopped hidle => simp only [State.commandsLeft, hidle]; simp
  | advanced hbusy' hjob hfit hpc => simp only [State.commandsLeft, hbusy', hjob, hparams, hpc, if_true]; omega
  | waiting hbusy' hjob hfit hpc =>
    have hsome : t.inflight ≠ none := Option.isSome_iff_ne_none.1 hjob
    simp only [State.commandsLeft, hbusy', hparams, hpc, if_true, if_neg hsome]
    omega

theorem State.RunsAlone.commandsBegun_le (h : s.RunsAlone) (k : Nat) : commandsBegun k s ≤ s.commandsLeft := by
  induction k generalizing s with
  | zero => exact Nat.zero_le _
  | succ k ih =>
    cases hbusy : s.busy with
    | false => rw [h.commandsBegun_of_idle hbusy]; exact Nat.zero_le _
    | true =>
      obtain ⟨t, ht, hsame, hstep⟩ := h.step_runsOn hbusy
      calc commandsBegun (k + 1) s
          = (if s.inflight = none then 1 else 0) + commandsBegun k t := by
            simp only [commandsBegun_succ k ht, hbusy, true_and]
        _ ≤ (if s.inflight = none then 1 else 0) + t.commandsLeft :=
          Nat.add_le_add_left (ih (h.of_runStep hsame hstep)) _
        _ ≤ s.commandsLeft := hstep.commandsLeft_le hbusy hsame.1

end

/-- Settles O22: PC rises by a word at each command, so the words left in LMEM bound both the steps to a stop or a wait
and the commands of the whole run. -/
theorem runEndsWithinLmemWords : Obligations.RunEndsWithinLmemWords := by
  intro s hready
  have ⟨_, _, hbusy, hjob⟩ := hready
  have hleft : s.commandsLeft = (s.params.lmemBytes - s.pc.toNat) / 4 + 1 := by
    simp only [State.commandsLeft, hbusy, hjob, if_true]
  exact ⟨hready.exists_run_end, fun k => hleft ▸ hready.runsAlone.commandsBegun_le k⟩

end Sys2Proof.Machine
end

section
/-! SUPPORT. The sequencer commands (R131 to R137): the row of each, the words of its opcode that are none, and what a
command that writes one register, one parameter CSR or one byte of LMEM leaves unchanged. -/

namespace Sys2Proof.Machine

/-! ### Rows -/

/-- A well-formed command is in its row of R111. -/
theorem inRow_of_wellFormed {i : Instr} (h : i.wellFormed = true) :
    InRow i (opMatch (Laws.EncodedRow.rowOf i)) (opMask (Laws.EncodedRow.rowOf i)) :=
  ⟨(encodedRow i).2, decodeWord_encodeWord_of_wellFormed h⟩

/-- A word whose fields are those of a command, but which is not the command's word, is refused: it has a z bit
(R113). -/
theorem decodeWord_refused_of_ne {w : Word} {op : Op} {i : Instr} (hcode : w.extractLsb' 26 6 = op.code)
    (hop : opFields op w = .ok i) (hne : w ≠ encodeWord i) : ∃ e, decodeWord w = .error e := by
  refine (decodeWord_refused_iff hcode).2 (.inl fun hz => hne ?_)
  exact (encodeWord_of_opFields hcode hz hop).2.symm

/-! ### What a command writes, and what it keeps -/

section

variable (s : State)

/-- A command that writes one element register writes nothing else. -/
theorem onlyElement_setElem (rd : Reg) (v : Byte) : OnlyElement rd v s (s.setElem rd v).advance :=
  ⟨by simp [completed_iff], s.elem_setElem_self rd v, fun _ hr => s.elem_setElem_of_ne v hr,
    ⟨⟨rfl, rfl, rfl, rfl, rfl, rfl, rfl⟩, rfl, rfl⟩, fun _ => rfl⟩

/-- The advance of PC does not show in the parameter CSRs. -/
theorem State.csrRead_advance {n : Nat} (h : 8 ≤ n ∧ n ≤ 16) : s.advance.csrRead n = s.csrRead n := by
  obtain ⟨h1, h2⟩ := h
  interval_cases n <;> rfl

/-- The low byte of STATUS while a command runs: BUSY, and no other bit (R32, R134). -/
theorem State.Inv.statusWord_low {s : State} (h : s.Inv) (hbusy : s.busy = true) (hjob : s.inflight = none) :
    s.statusWord.setWidth 8 = (0x01 : Byte) := by
  obtain ⟨hdone, herr⟩ := h.busyClean hbusy
  have hwait : s.rngWait = false := by simp [rngWait, hjob]
  ext i hi
  interval_cases i <;> simp [statusWord, placeField, hbusy, hdone, herr, hwait]

/-- LMEM_BYTES is a multiple of 256, so that its low byte is 0 (R7, R134). -/
theorem State.lmemBytes_low : (s.csrRead 17).setWidth 8 = (0 : Byte) := by
  apply BitVec.eq_of_toNat_eq
  have hmod := lmemBytes_mod s.params
  have zero : (0 : Byte).toNat = 0 := rfl
  rw [BitVec.toNat_setWidth, s.csrRead_lmemBytes, zero]
  omega

/-- The address of LDB and STB as ERRINFO records it (R109, R136). -/
theorem ofNat_absAddr (addr22 : BitVec 22) : BitVec.ofNat 32 (absAddr addr22) = addr22.setWidth 32 :=
  BitVec.ofNat_toNat ..

theorem State.inRange_absAddr (addr22 : BitVec 22) :
    s.inRange (absAddr addr22) 1 = true ↔ addr22.toNat < s.params.lmemBytes := s.inRange_iff _ _

/-- LDB and STB outside LMEM take AddressRange with the address (R136, R137). -/
theorem faulted_addressRange (addr22 : BitVec 22) : Faulted .addressRange (addr22.setWidth 32) s
    (s.takeFault ⟨.addressRange, BitVec.ofNat 32 (absAddr addr22)⟩) :=
  ofNat_absAddr addr22 ▸ faulted_takeFault s _

end

/-! ### The statements about the sequencer commands -/

/-- Settles O23: the row has no operand, so a word of its opcode with no z bit is the command's own. -/
theorem nopOnlyAdvancesPc : Obligations.NopOnlyAdvancesPc := by
  refine ⟨inRow_of_wellFormed rfl, fun w hcode hne => decodeWord_refused_of_ne (op := .nop) hcode rfl hne, fun s => ?_⟩
  exact ⟨s.advance, rfl, by simp [completed_iff], fun _ => rfl, ⟨⟨rfl, rfl, rfl, rfl, rfl, rfl, rfl⟩, rfl, rfl⟩,
    fun _ => rfl⟩

/-- Settles O24: HALT writes BUSY and DONE alone. -/
theorem haltStopsAndSetsDone : Obligations.HaltStopsAndSetsDone := by
  refine ⟨inRow_of_wellFormed rfl, fun w hcode hne => decodeWord_refused_of_ne (op := .halt) hcode rfl hne, fun s => ?_⟩
  refine ⟨{ s with busy := false, done := true }, rfl, rfl, rfl, rfl, rfl, rfl, rfl, fun hie => ?_, ?_⟩
  · simp [State.irq, hie]
  · exact ⟨⟨rfl, rfl, rfl, rfl, rfl⟩, fun _ => rfl, ⟨⟨rfl, rfl, rfl, rfl, rfl, rfl, rfl⟩, rfl, rfl⟩, fun _ => rfl,
      ⟨rfl, rfl⟩, ⟨rfl, rfl, rfl, rfl, rfl⟩⟩

/-- Settles O25: a CSRWI that a word encodes sets the parameter CSR, and the decoder refuses the other indices. -/
theorem csrwiWritesOneParameterCsr : Obligations.CsrwiWritesOneParameterCsr := by
  refine ⟨fun csr imm20 h8 h16 => ?command, fun w hcode hbad => ?illegal⟩
  case command =>
    have hok : csrwIndexOk csr = true := by simp [csrwIndexOk, h8, h16]
    refine ⟨inRow_of_wellFormed hok, fun s => ?_⟩
    refine ⟨(s.setParam csr.val (immCsr imm20)).advance, if_pos hok, ?_, fun n hn8 hn16 hne => ?_, ?_,
      State.elem_congr (by simp), State.readByte_congr (by simp) (by simp)⟩
    · rw [State.csrRead_advance _ ⟨h8, h16⟩, s.csrRead_setParam_self _ ⟨h8, h16⟩, immCsr]
    · rw [State.csrRead_advance _ ⟨hn8, hn16⟩, s.csrRead_setParam_of_ne _ ⟨h8, h16⟩ ⟨hn8, hn16⟩ hne]
    · simp [completed_iff]
  case illegal =>
    have hfields := (opFields_csrwi_refused_iff w).2 (by omega)
    exact (decodeWord_refused_iff (op := .csrwi) hcode).2 (.inr hfields)

/-- Settles O26: a CSRR that a word encodes writes the low byte of the host's view, and the decoder refuses the other
indices. -/
theorem csrrReadsTheLowByteOfACsr : Obligations.CsrrReadsTheLowByteOfACsr := by
  refine ⟨fun rd csr hcsr => ?command, fun s hbusy hjob hinv => hinv.statusWord_low hbusy hjob,
    fun s => ⟨by simp [State.csrRead], rfl, rfl, s.lmemBytes_low⟩, fun w hcode hbad => ?illegal⟩
  case command =>
    have hok : csrrIndexOk csr = true := by simp [csrrIndexOk, hcsr]
    exact ⟨inRow_of_wellFormed hok, fun s => ⟨_, if_pos hok, onlyElement_setElem s rd _⟩⟩
  case illegal =>
    have hfields := (opFields_csrr_refused_iff w).2 hbad
    exact (decodeWord_refused_iff (op := .csrr) hcode).2 (.inr hfields)

/-- Settles O28: an immediate is the element itself (R109). -/
theorem gldiLoadsTheImmediate : Obligations.GldiLoadsTheImmediate := by
  intro rd imm8
  exact ⟨inRow_of_wellFormed rfl, fun s => ⟨_, rfl, onlyElement_setElem s rd imm8⟩⟩

/-- Settles O29: by whether the address lies in LMEM. -/
theorem ldbLoadsOneByte : Obligations.LdbLoadsOneByte := by
  refine fun rd addr22 => ⟨inRow_of_wellFormed rfl, fun s => ⟨fun hin => ?loads, fun hout => ?faults⟩⟩
  case loads => exact ⟨_, if_pos ((s.inRange_absAddr addr22).2 hin), onlyElement_setElem s rd _⟩
  case faults =>
    exact ⟨_, if_neg fun hin => Nat.not_lt.2 hout ((s.inRange_absAddr addr22).1 hin), faulted_addressRange s addr22⟩

/-- Settles O30: by whether the address lies in LMEM; the byte is a region of length 1. -/
theorem stbStoresOneByte : Obligations.StbStoresOneByte := by
  refine fun rs addr22 => ⟨inRow_of_wellFormed rfl, fun s => ⟨fun hin => ?stores, fun hout => ?faults⟩⟩
  case stores =>
    refine ⟨(s.writeBytes addr22.toNat [s.elem rs]).advance, if_pos ((s.inRange_absAddr addr22).2 hin), ?_, ?_,
      by simp [completed_iff], fun _ => rfl, ⟨⟨rfl, rfl, rfl, rfl, rfl, rfl, rfl⟩, rfl, rfl⟩⟩
    · exact s.readByte_writeBytes_inside addr22.toNat [s.elem rs] (i := 0) (by simp)
    · exact fun a ha => s.readByte_writeBytes_region (r := ⟨addr22.toNat, 1⟩) rfl (ha _ (by simp))
  case faults =>
    exact ⟨_, if_neg fun hin => Nat.not_lt.2 hout ((s.inRange_absAddr addr22).1 hin), faulted_addressRange s addr22⟩

end Sys2Proof.Machine
end

section
/-! SUPPORT. The table commands (R151 to R153): what GEXP and GLOG write, and the one operand of each round trip that is
not given back. -/

namespace Sys2Proof.Machine

/-! ### What the table commands write -/

/-- GEXP completes in every state, and writes EXP of its source as it stood before (R151). -/
theorem exec_gexp_onlyElement (rd rs1 : Reg) (s : State) :
    ∃ t, exec (.gexp rd rs1) s = .next t ∧ OnlyElement rd (expTable (s.elem rs1).toNat) s t :=
  ⟨_, rfl, onlyElement_setElem s rd _⟩

/-- GLOG completes in every state, and writes LOG of its source as it stood before (R152). -/
theorem exec_glog_onlyElement (rd rs1 : Reg) (s : State) :
    ∃ t, exec (.glog rd rs1) s = .next t ∧ OnlyElement rd (logTable (s.elem rs1)) s t :=
  ⟨_, rfl, onlyElement_setElem s rd _⟩

/-- The destination of a command that writes one element register. -/
theorem OnlyElement.elem_eq {rd : Reg} {v : Byte} {s t : State} (h : OnlyElement rd v s t) : t.elem rd = v := by
  obtain ⟨_, hrd, _⟩ := h
  exact hrd

/-! ### The tables on every operand -/

/-- LOG after EXP: 255 has the entry of 0, since the generator's powers repeat after 255 (R48, R153). -/
theorem logTable_expTable_toNat (x : Byte) : logTable (expTable x.toNat) = if x = 255 then 0 else x := by
  split_ifs with hx
  · subst hx
    rfl
  · have hle : x.toNat ≤ 254 := by bv_omega
    exact BitVec.eq_of_toNat_eq (logTable_expTable hle)

/-- EXP after LOG: 0 has no logarithm, and its entry is that of 1 (R49, R153). -/
theorem expTable_logTable_toNat (x : Byte) : expTable (logTable x).toNat = if x = 0 then 1 else x := by
  split_ifs with hx
  · subst hx
    rfl
  · exact expTable_logTable hx

/-! ### The statements about the table commands -/

/-- Settles O31: GEXP's frame is that of one register write, and no power of the generator is 0. -/
theorem gexpReadsTheExpTable : Obligations.GexpReadsTheExpTable := by
  refine ⟨fun rd rs1 => ⟨inRow_of_wellFormed rfl, exec_gexp_onlyElement rd rs1⟩, rfl, rfl, rfl, rfl, fun x => ?_⟩
  have hx : x.toNat ≤ 509 := by have := x.isLt; omega
  exact expTable_ne_zero hx

/-- Settles O32: GLOG's frame is that of one register write, and no logarithm is 255. -/
theorem glogReadsTheLogTable : Obligations.GlogReadsTheLogTable :=
  ⟨fun rd rs1 => ⟨inRow_of_wellFormed rfl, exec_glog_onlyElement rd rs1⟩, rfl, rfl, rfl, logTable_le⟩

/-- Settles O33: the second command reads what the first one wrote, so that its result is one table after the other. -/
theorem tableCommandsRoundTrip : Obligations.TableCommandsRoundTrip := by
  intro s r q p
  constructor
  · obtain ⟨t, hexp, ht⟩ := exec_gexp_onlyElement q r s
    obtain ⟨u, hlog, hu⟩ := exec_glog_onlyElement p q t
    exact ⟨t, u, hexp, hlog, by rw [hu.elem_eq, ht.elem_eq, logTable_expTable_toNat]⟩
  · obtain ⟨t, hlog, ht⟩ := exec_glog_onlyElement q r s
    obtain ⟨u, hexp, hu⟩ := exec_gexp_onlyElement p q t
    exact ⟨t, u, hlog, hexp, by rw [hu.elem_eq, ht.elem_eq, expTable_logTable_toNat]⟩

end Sys2Proof.Machine
end

section
/-! SUPPORT. The laws of the field (R160 to R162, R166). A nonzero element is a power of the generator, so a product with
it is repeated multiplication by the generator, of which the 255th brings every element back; the addition is that of the
polynomial product, which is linear. -/

namespace Sys2Proof.Machine

/-! ### Powers of the generator -/

/-- The generator has order 255: EXP repeats (R48). -/
theorem timesPower_255 (a : Byte) : timesPower a 255 = a := by
  by_cases ha : a = 0
  · simp [ha]
  · have hle := logTable_le a
    calc timesPower a 255
        = timesPower 1 ((logTable a).toNat + 255) := by rw [timesPower_add, timesPower_one_logTable ha]
      _ = expTable ((logTable a).toNat + 255) := (expTable_eq_timesPower (by omega)).symm
      _ = a := by rw [expTable_add_period hle, expTable_logTable ha]

theorem timesPower_255_mul (a : Byte) (n : Nat) : timesPower a (255 * n) = a := by
  induction n with
  | zero => rfl
  | succ n ih => rw [Nat.mul_succ, timesPower_add, ih, timesPower_255]

theorem exists_eq_timesPower_one {x : Byte} (h : x ≠ 0) : ∃ n, x = timesPower 1 n :=
  ⟨(logTable x).toNat, (timesPower_one_logTable h).symm⟩

/-! ### The product (R161) -/

theorem gmul_comm (a b : Byte) : gmul a b = gmul b a := by
  simp only [gmul, or_comm, Nat.add_comm]

@[simp] theorem gmul_zero (a : Byte) : gmul a 0#8 = 0#8 := if_pos (.inr rfl)

@[simp] theorem zero_gmul (a : Byte) : gmul 0#8 a = 0#8 := if_pos (.inl rfl)

@[simp] theorem gmul_one (a : Byte) : gmul a 1#8 = a := (gmul_eq_polyProduct a 1).trans (polyProduct_one a)

@[simp] theorem one_gmul (a : Byte) : gmul 1#8 a = a := by rw [gmul_comm, gmul_one]

theorem gmul_timesPower (a b : Byte) (k : Nat) : gmul a (timesPower b k) = timesPower (gmul a b) k := by
  induction k with
  | zero => rfl
  | succ k ih =>
    rw [gmul_eq_polyProduct] at ih ⊢
    rw [timesPower, polyProduct_timesGenerator, ih, timesPower]

theorem gmul_timesPower_one (a : Byte) (k : Nat) : gmul a (timesPower 1 k) = timesPower a k := by
  simp [gmul_timesPower]

theorem gmul_assoc (a b c : Byte) : gmul (gmul a b) c = gmul a (gmul b c) := by
  by_cases hc : c = 0
  · simp [hc]
  · obtain ⟨k, rfl⟩ := exists_eq_timesPower_one hc
    rw [gmul_timesPower_one, gmul_timesPower_one, gmul_timesPower]

theorem gmul_gxor (a b c : Byte) : gmul a (gxor b c) = gxor (gmul a b) (gmul a c) := by
  simp only [gxor, gmul_eq_polyProduct, polyProduct_eq_sum, BitVec.getLsbD_xor, bitTerm_xor_left]
  ac_rfl

/-- There are no zero divisors: a product of nonzero elements is an entry of EXP. -/
theorem gmul_eq_zero_iff (a b : Byte) : gmul a b = 0 ↔ a = 0 ∨ b = 0 := by
  refine ⟨fun h => ?_, fun h => if_pos h⟩
  by_contra hne
  have hle : (logTable a).toNat + (logTable b).toNat ≤ 509 := by
    have := logTable_le a
    have := logTable_le b
    omega
  exact expTable_ne_zero hle ((if_neg hne).symm.trans h)

/-! ### The quotient (R162) -/

theorem gdiv_zero (a : Byte) : gdiv a 0 = none := if_pos rfl

theorem gdiv_of_ne_zero (a : Byte) {b : Byte} (hb : b ≠ 0) : gdiv a b = some (gquot a b) := if_neg hb

/-- The quotient times the divisor adds the divisor's logarithm back, and leaves a full turn of the generator. -/
theorem gmul_gquot (a : Byte) {b : Byte} (hb : b ≠ 0) : gmul (gquot a b) b = a := by
  by_cases ha : a = 0
  · simp [ha, gquot]
  · have hla := logTable_le a
    have hlb := logTable_le b
    have hquot : gquot a b = timesPower 1 ((logTable a).toNat + 255 - (logTable b).toNat) :=
      (if_neg ha).trans (expTable_eq_timesPower (by omega))
    calc gmul (gquot a b) b
        = timesPower (gquot a b) (logTable b).toNat := by
          rw [← gmul_timesPower_one, timesPower_one_logTable hb]
      _ = timesPower 1 ((logTable a).toNat + 255) := by
          rw [hquot, ← timesPower_add, Nat.sub_add_cancel (by omega)]
      _ = a := by rw [timesPower_add, timesPower_255, timesPower_one_logTable ha]

/-- A nonzero factor cancels: multiply by its inverse. -/
theorem gmul_right_cancel {a b c : Byte} (hc : c ≠ 0) (h : gmul a c = gmul b c) : a = b := by
  have undo (x : Byte) : gmul (gmul x c) (gquot 1 c) = x := by
    rw [gmul_assoc, gmul_comm c, gmul_gquot 1 hc]
    exact gmul_one x
  rw [← undo a, h, undo b]

theorem gquot_gmul (a : Byte) {b : Byte} (hb : b ≠ 0) : gquot (gmul a b) b = a :=
  gmul_right_cancel hb (gmul_gquot _ hb)

theorem gquot_self {b : Byte} (hb : b ≠ 0) : gquot b b = 1 := by
  simpa using gquot_gmul 1 hb

/-! ### Powers (R166) -/

theorem gpow_timesPower_one (n k : Nat) : gpow (timesPower 1 n) k = timesPower 1 (n * k) := by
  induction k with
  | zero => rfl
  | succ k ih => rw [gpow, ih, gmul_timesPower_one, ← timesPower_add, Nat.mul_succ]

theorem gpow_255 {a : Byte} (ha : a ≠ 0) : gpow a 255 = 1 := by
  obtain ⟨n, rfl⟩ := exists_eq_timesPower_one ha
  rw [gpow_timesPower_one, Nat.mul_comm, timesPower_255_mul]

/-! ### The statement of the laws -/

/-- Settles O8: the laws above, with the agreement with the polynomial product from `gmul_eq_polyProduct`. -/
theorem fieldOperationLaws : Obligations.FieldOperationLaws := by
  refine ⟨gmul_comm, gmul_assoc, gmul_gxor, fun a => ⟨gmul_one a, gmul_zero a⟩, fun a b hb => ?quotient,
    fun a ha => ?inverse, gmul_eq_zero_iff, fun _ => gpow_255, gmul_eq_polyProduct, gdiv_zero⟩
  case quotient =>
    refine ⟨gquot a b, gdiv_of_ne_zero a hb, gmul_gquot a hb, ?_, ?_⟩
    · rw [gdiv_of_ne_zero _ hb, gquot_gmul a hb]
    · rw [← gmul_eq_polyProduct, gmul_gquot a hb]
  case inverse => exact ⟨gquot 1 a, gdiv_of_ne_zero 1 ha, by rw [gmul_comm, gmul_gquot 1 ha]⟩

end Sys2Proof.Machine
end

section
/-! SUPPORT. The arithmetic commands GXOR, GMUL and GDIV (R163 to R165): each writes one element register, its sources
read before the write, or takes DivideByZero. -/

namespace Sys2Proof.Machine

/-! ### What the arithmetic commands write -/

/-- GXOR completes in every state, and writes the sum of its sources (R163). -/
theorem exec_gxor_onlyElement (rd rs1 rs2 : Reg) (s : State) :
    ∃ t, exec (.gxor rd rs1 rs2) s = .next t ∧ OnlyElement rd (gxor (s.elem rs1) (s.elem rs2)) s t :=
  ⟨_, rfl, onlyElement_setElem s rd _⟩

/-- GMUL completes in every state, and writes the product of its sources (R164). -/
theorem exec_gmul_onlyElement (rd rs1 rs2 : Reg) (s : State) :
    ∃ t, exec (.gmul rd rs1 rs2) s = .next t ∧ OnlyElement rd (gmul (s.elem rs1) (s.elem rs2)) s t :=
  ⟨_, rfl, onlyElement_setElem s rd _⟩

theorem exec_gdiv_eq (rd rs1 rs2 : Reg) (s : State) : exec (.gdiv rd rs1 rs2) s = execGdiv rd rs1 rs2 s := rfl

/-- GDIV by a nonzero divisor completes, and writes the quotient of its sources (R165). -/
theorem exec_gdiv_onlyElement (rd rs1 rs2 : Reg) {s : State} (h : s.elem rs2 ≠ 0) :
    ∃ t, exec (.gdiv rd rs1 rs2) s = .next t ∧ OnlyElement rd (gquot (s.elem rs1) (s.elem rs2)) s t := by
  refine ⟨_, ?_, onlyElement_setElem s rd _⟩
  rw [exec_gdiv_eq, execGdiv, gdiv_of_ne_zero _ h]

/-- GDIV by zero takes DivideByZero, whatever the dividend (R165). -/
theorem exec_gdiv_faulted (rd rs1 rs2 : Reg) {s : State} (h : s.elem rs2 = 0) :
    ∃ t, exec (.gdiv rd rs1 rs2) s = .next t ∧ Faulted .divideByZero 0 s t := by
  refine ⟨_, ?_, faulted_takeFault s ⟨.divideByZero, 0⟩⟩
  rw [exec_gdiv_eq, execGdiv, h, gdiv_zero]

/-! ### The statements about the arithmetic commands -/

/-- Settles O34: the field's addition is the xor. -/
theorem gxorAddsInTheField : Obligations.GxorAddsInTheField :=
  fun rd rs1 rs2 => ⟨inRow_of_wellFormed rfl, exec_gxor_onlyElement rd rs1 rs2⟩

/-- Settles O35: R161's expression is `gmul` of the sources; the listed products are entries of the tables. -/
theorem gmulMultipliesInTheField : Obligations.GmulMultipliesInTheField :=
  ⟨fun rd rs1 rs2 => ⟨inRow_of_wellFormed rfl, exec_gmul_onlyElement rd rs1 rs2⟩,
    fun a => ⟨gmul_zero a, zero_gmul a, gmul_one a, one_gmul a⟩, by decide⟩

/-- Settles O36: by whether the divisor is zero; R162's expression is `gquot` of the sources. -/
theorem gdivDividesOrFaults : Obligations.GdivDividesOrFaults := by
  refine ⟨fun rd rs1 rs2 => ⟨inRow_of_wellFormed rfl, fun s => ?command⟩, fun b hb => ?quotients, by decide⟩
  case command => exact ⟨exec_gdiv_onlyElement rd rs1 rs2, exec_gdiv_faulted rd rs1 rs2⟩
  case quotients =>
    refine ⟨gdiv_of_ne_zero 0 hb, ?_, gquot 1 b, gdiv_of_ne_zero 1 hb, gmul_gquot 1 hb⟩
    rw [gdiv_of_ne_zero b hb, gquot_self hb]

end Sys2Proof.Machine
end

section
/-! SUPPORT. Horner's rule and Lagrange's formula (R187, R192, R214, R216): the first on the model's own operations, the
second over any field, from Mathlib's interpolation, and then at the field that R166's laws make of the bytes. -/

namespace Sys2Proof.Machine

/-! ### Horner's rule (R180, R187) -/

@[simp] theorem hornerStep_zero (x a : Byte) : hornerStep 0#8 x a = a := by simp [hornerStep, gxor]

/-- The first step of Horner's rule may start from 0 (R180). -/
theorem horner_eq_foldl (x : Byte) (cs : List Byte) :
    horner x cs = cs.foldl (fun res ak => hornerStep res x ak) 0 := by
  cases cs with
  | nil => rfl
  | cons top rest => simp [horner]

theorem horner_append_singleton (x : Byte) (cs : List Byte) (c : Byte) :
    horner x (cs ++ [c]) = hornerStep (horner x cs) x c := by
  simp [horner_eq_foldl]

theorem gxor_gmul (a b c : Byte) : gmul (gxor a b) c = gxor (gmul a c) (gmul b c) := by
  simp only [gmul_comm _ c, gmul_gxor]

theorem polyValue_cons (x : Byte) (d : Nat) (c : Byte) (cs : List Byte) :
    polyValue x d (c :: cs) = gxor (gmul c (gpow x d)) (polyValue x (d + 1) cs) := rfl

/-- One degree higher: every term has one more factor x. -/
theorem polyValue_succ (x : Byte) (d : Nat) (cs : List Byte) : polyValue x (d + 1) cs = gmul (polyValue x d cs) x := by
  induction cs generalizing d with
  | nil => simp [polyValue]
  | cons c cs ih => rw [polyValue_cons, polyValue_cons, ih, gxor_gmul, gpow, gmul_assoc]

/-- Settles O9, by induction on the coefficients: the last step of Horner's rule adds the lowest one. -/
theorem hornerEvaluatesThePolynomial : Obligations.HornerEvaluatesThePolynomial := by
  intro x coefs
  induction coefs with
  | nil => rfl
  | cons c cs ih =>
    rw [List.reverse_cons, horner_append_singleton, ih, hornerStep, polyValue_cons, polyValue_succ]
    simp [gxor, gpow, BitVec.xor_comm]

/-! ### Lagrange's formula at 0, over any field -/

section lagrange

open Polynomial

variable {F : Type} [Field F]

/-- The polynomial that Horner's rule evaluates, its coefficients highest degree first. -/
noncomputable def hornerPolynomial (cs : List F) : F[X] := cs.foldl (fun p a => p * X + C a) 0

theorem hornerPolynomial_append_singleton (cs : List F) (a : F) :
    hornerPolynomial (cs ++ [a]) = hornerPolynomial cs * X + C a := by
  simp [hornerPolynomial]

theorem eval_hornerPolynomial (x : F) (cs : List F) :
    (hornerPolynomial cs).eval x = cs.foldl (fun res a => res * x + a) 0 := by
  induction cs using List.reverseRecOn with
  | nil => simp [hornerPolynomial]
  | append_singleton cs a ih => simp [hornerPolynomial_append_singleton, ih]

theorem eval_zero_hornerPolynomial (cs : List F) (a : F) : (hornerPolynomial (cs ++ [a])).eval 0 = a := by
  simp [hornerPolynomial_append_singleton]

theorem degree_hornerPolynomial_lt (cs : List F) : (hornerPolynomial cs).degree < cs.length := by
  rw [degree_lt_iff_coeff_zero]
  induction cs using List.reverseRecOn with
  | nil => simp [hornerPolynomial]
  | append_singleton cs a ih =>
    intro m hm
    rw [List.length_append, List.length_singleton] at hm
    obtain ⟨k, rfl⟩ : ∃ k, m = k + 1 := ⟨m - 1, by omega⟩
    rw [hornerPolynomial_append_singleton, coeff_add, coeff_mul_X, coeff_C_succ, ih k (by omega), add_zero]

variable [DecidableEq F]

/-- The value at 0 of the basis polynomial of a point x among the points s. -/
theorem eval_zero_basis (s : Finset F) (x : F) :
    (Lagrange.basis s id x).eval 0 = ∏ y ∈ s.erase x, y / (y - x) := by
  rw [Lagrange.basis, eval_prod]
  refine Finset.prod_congr rfl fun y _ => ?_
  rw [Lagrange.basisDivisor, eval_mul, eval_C, eval_sub, eval_X, eval_C, id, id, zero_sub, ← neg_sub y x, inv_neg,
    neg_mul_neg, mul_comm, div_eq_mul_inv]

/-- Weights that divide the product of the other points by the product of their differences combine the values of a
polynomial to its value at 0, when there are more points than its degree. -/
theorem sum_eval_mul_weight {xs : List F} (hnodup : xs.Nodup) {p : F[X]} (hdeg : p.degree < xs.length) {w : F → F}
    (hw : ∀ x ∈ xs, w x * ((xs.erase x).map (· - x)).prod = (xs.erase x).prod) :
    (xs.map fun x => p.eval x * w x).sum = p.eval 0 := by
  have hweight : ∀ x ∈ xs.toFinset, (Lagrange.basis xs.toFinset id x).eval 0 = w x := by
    intro x hx
    have hers : xs.toFinset.erase x = (xs.erase x).toFinset := by
      ext y
      simp [hnodup.mem_erase_iff]
    have hne : ((xs.erase x).map (· - x)).prod ≠ 0 := by
      simp only [ne_eq, List.prod_eq_zero_iff, List.mem_map, not_exists, not_and, sub_eq_zero]
      exact fun y hy => (hnodup.mem_erase_iff.1 hy).1
    rw [eval_zero_basis, Finset.prod_div_distrib, hers, List.prod_toFinset _ (hnodup.erase x),
      List.prod_toFinset _ (hnodup.erase x), List.map_id', div_eq_iff hne, hw x (List.mem_toFinset.1 hx)]
  have hinter := Lagrange.eq_interpolate (s := xs.toFinset) (v := id) Function.injective_id.injOn
    (f := p) (by rwa [List.toFinset_card_of_nodup hnodup])
  rw [← List.sum_toFinset _ hnodup]
  conv_rhs => rw [hinter, Lagrange.interpolate_apply, eval_finsetSum]
  refine Finset.sum_congr rfl fun x hx => ?_
  rw [eval_mul, eval_C, hweight x hx, id]

/-- The combination at 0 of the values that Horner's rule gives at enough distinct points is the lowest coefficient. -/
theorem foldl_horner_mul_weight {xs : List F} (hnodup : xs.Nodup) {higher : List F} {a0 : F}
    (hlen : higher.length + 1 ≤ xs.length) {w : F → F}
    (hw : ∀ x ∈ xs, w x * (xs.erase x).foldl (fun den y => den * (y - x)) 1 = (xs.erase x).foldl (fun n y => n * y) 1) :
    xs.foldl (fun acc x => acc + (higher ++ [a0]).foldl (fun res a => res * x + a) 0 * w x) 0 = a0 := by
  have hdeg := (degree_hornerPolynomial_lt (higher ++ [a0])).trans_le (b := ((higher ++ [a0]).length : WithBot ℕ))
    (c := xs.length) (by simpa using Nat.cast_le.2 hlen)
  have hsum := sum_eval_mul_weight hnodup hdeg (w := w) fun x hx => by
    rw [List.prod_eq_foldl, List.prod_eq_foldl, List.foldl_map]
    exact hw x hx
  rw [eval_zero_hornerPolynomial, List.sum_eq_foldl, List.foldl_map] at hsum
  simpa only [eval_hornerPolynomial] using hsum

end lagrange

/-! ### The field of the bytes -/

/-- The bytes as field elements: their own type, so that the arithmetic of bit vectors is not the field's. -/
def FieldElement : Type := Byte

/-- The inverse of an element; that of 0 is 0, as Mathlib's fields have it. -/
def ginv (a : Byte) : Byte := if a = 0 then 0 else gquot 1 a

theorem gmul_ginv {a : Byte} (ha : a ≠ 0) : gmul a (ginv a) = 1 := by
  rw [ginv, if_neg ha, gmul_comm, gmul_gquot 1 ha]

/-- The bytes are a field under `gxor` and `gmul` (R160 to R162, R166); each element is its own negative. -/
@[reducible] def fieldElementField : Field FieldElement where
  add := gxor
  zero := (0 : Byte)
  neg a := a
  sub := gxor
  mul := gmul
  one := (1 : Byte)
  inv := ginv
  add_assoc := BitVec.xor_assoc
  zero_add _ := BitVec.zero_xor
  add_zero _ := BitVec.xor_zero
  add_comm := BitVec.xor_comm
  neg_add_cancel _ := BitVec.xor_self
  mul_assoc := gmul_assoc
  mul_comm := gmul_comm
  one_mul := one_gmul
  mul_one := gmul_one
  zero_mul := zero_gmul
  mul_zero := gmul_zero
  left_distrib := gmul_gxor
  right_distrib := gxor_gmul
  exists_pair_ne := ⟨(0 : Byte), (1 : Byte), fun h => absurd h (by decide : (0 : Byte) ≠ 1)⟩
  inv_zero := if_pos rfl
  mul_inv_cancel _ := gmul_ginv
  nsmul := @nsmulRec _ ⟨(0 : Byte)⟩ ⟨gxor⟩
  zsmul := @zsmulRec _ ⟨(0 : Byte)⟩ ⟨gxor⟩ ⟨fun a => a⟩ (@nsmulRec _ ⟨(0 : Byte)⟩ ⟨gxor⟩)
  nnqsmul := _
  qsmul := _

/-! ### The weights of the model (R214, R216) -/

/-- A product of nonzero factors is not zero. -/
theorem foldl_gmul_ne_zero {f : Byte → Byte} {l : List Byte} (h : ∀ y ∈ l, f y ≠ 0) {a : Byte} (ha : a ≠ 0) :
    l.foldl (fun den y => gmul den (f y)) a ≠ 0 := by
  induction l generalizing a with
  | nil => exact ha
  | cons y l ih =>
    refine ih (fun z hz => h z (by simp [hz])) ?_
    rw [ne_eq, gmul_eq_zero_iff, not_or]
    exact ⟨ha, h y (by simp)⟩

section weights

variable {xs : List Byte} (hnodup : xs.Nodup)

include hnodup

/-- The weight of a point by its value: without its index, as the points are distinct. -/
theorem weightNum_eq {i : Nat} (hi : i < xs.length) : weightNum xs i = (xs.erase xs[i]).foldl gmul 1 := by
  rw [weightNum, hnodup.erase_getElem]

theorem weightDen_eq {i : Nat} (hi : i < xs.length) :
    weightDen xs i = (xs.erase xs[i]).foldl (fun den y => gmul den (gxor y xs[i])) 1 := by
  rw [weightDen, hnodup.erase_getElem, List.getD_eq_getElem _ _ hi]

/-- The differences of distinct points are not zero (R266). -/
theorem foldl_differences_ne_zero (x : Byte) : (xs.erase x).foldl (fun den y => gmul den (gxor y x)) 1 ≠ 0 := by
  refine foldl_gmul_ne_zero (fun y hy h0 => ?_) (by decide)
  exact (hnodup.mem_erase_iff.1 hy).1 (BitVec.xor_eq_zero_iff.1 h0)

/-- No denominator of distinct points is zero (R214, R266). -/
theorem zeroDenominator_eq_none : zeroDenominator xs = none := by
  simp only [zeroDenominator, List.find?_eq_none, List.mem_range, beq_iff_eq]
  intro i hi
  rw [weightDen_eq hnodup hi]
  exact foldl_differences_ne_zero hnodup _

theorem lagrangeWeights_eq_map : lagrangeWeights xs = xs.map fun x =>
    gquot ((xs.erase x).foldl gmul 1) ((xs.erase x).foldl (fun den y => gmul den (gxor y x)) 1) := by
  refine List.ext_getElem (by simp) fun i hi _ => ?_
  rw [lagrangeWeights_length] at hi
  simp only [lagrangeWeights, List.getElem_map, List.getElem_range, weightNum_eq hnodup hi, weightDen_eq hnodup hi]

end weights

/-- The values of a polynomial at enough distinct points combine to its lowest coefficient: the model's weights are
those of Lagrange's formula, in the field of the bytes (R192). -/
theorem combine_horner {xs : List Byte} (hnodup : xs.Nodup) {higher : List Byte} (a0 : Byte)
    (hlen : higher.length + 1 ≤ xs.length) :
    combine (xs.map fun x => horner x (higher ++ [a0])) (lagrangeWeights xs) = a0 := by
  rw [lagrangeWeights_eq_map hnodup, combine, List.zip_map', List.foldl_map]
  simp only [horner_eq_foldl]
  exact @foldl_horner_mul_weight FieldElement fieldElementField instDecidableEqBitVec xs hnodup higher a0 hlen _
    fun x _ => gmul_gquot _ (foldl_differences_ne_zero hnodup x)

/-- Settles O10: Lagrange's formula does not need the points to be nonzero. -/
theorem enoughSharesRecoverTheSecretByte : Obligations.EnoughSharesRecoverTheSecretByte :=
  fun _ a0 _ hnodup _ hlen => combine_horner hnodup a0 hlen

end Sys2Proof.Machine
end

section
/-! SUPPORT. The checks of EVAL and SPLIT (R182 to R185), and the request and the failure of SPLIT (R188): the first
check that fails is the fault that the command takes. -/

namespace Sys2Proof.Machine

/-! ### Checks that fail -/

/-- The first region of a range check that is not in LMEM (R72). -/
theorem rangeTrap_of_first {size : Nat} (pre : List Region) {r : Region} (post : List Region)
    (hpre : ∀ q ∈ pre, q.base + q.len ≤ size) (hr : ¬ r.base + r.len ≤ size) :
    rangeTrap size (pre ++ r :: post) = some ⟨.addressRange, BitVec.ofNat 32 r.base⟩ := by
  have hnone : rangeTrap size pre = none := (rangeTrap_eq_none_iff size pre).2 hpre
  have hfirst : rangeTrap size (r :: post) = some ⟨.addressRange, BitVec.ofNat 32 r.base⟩ := by simp [rangeTrap, hr]
  rw [rangeTrap] at hnone hfirst ⊢
  rw [List.findSome?_append, hnone, hfirst]
  rfl

/-- Any overlap among the pairs is the same fault (R185, R215). -/
theorem overlapTrap_of_mem {ps : List (Region × Region)} {p : Region × Region} (hmem : p ∈ ps)
    (h : overlap p.1 p.2 = true) : overlapTrap ps = some ⟨.bufferOverlap, 0⟩ := by
  cases ht : overlapTrap ps with
  | none => exact absurd ((overlapTrap_eq_none_iff ps).1 ht p hmem) (by simp [h])
  | some t => rw [(overlapTrap_eq_some ht).1]

section

variable (j : GenJob)

theorem GenJob.paramTrap_of_secLen (h : j.secLen.toNat = 0 ∨ 255 < j.secLen.toNat) :
    j.paramTrap = some ⟨.invalidSecret, j.secLen⟩ := if_pos h

theorem GenJob.paramTrap_of_needed (hL : 1 ≤ j.secLen.toNat ∧ j.secLen.toNat ≤ 255)
    (h : j.needed.toNat < 2 ∨ j.total.toNat < j.needed.toNat) :
    j.paramTrap = some ⟨.invalidThreshold, j.needed⟩ := (if_neg (by omega)).trans (if_pos h)

theorem GenJob.paramTrap_of_total (hL : 1 ≤ j.secLen.toNat ∧ j.secLen.toNat ≤ 255)
    (hn : 2 ≤ j.needed.toNat ∧ j.needed.toNat ≤ j.total.toNat) (h : 255 < j.total.toNat) :
    j.paramTrap = some ⟨.invalidShareCount, j.total⟩ :=
  (if_neg (by omega)).trans ((if_neg (by omega)).trans (if_pos h))

/-- The overlap pairs of EVAL, and for any other command those of SPLIT (R185). -/
def GenJob.pairsOf (i : Instr) : List (Region × Region) := if i = .eval then j.evalPairs else j.splitPairs

/-- The pairs of EVAL are among those of both commands. -/
theorem GenJob.mem_pairsOf {p : Region × Region} (i : Instr) (h : p ∈ j.evalPairs) : p ∈ j.pairsOf i := by
  unfold pairsOf
  split
  · exact h
  · exact List.mem_append_left _ h

end

/-! ### The fault of EVAL and of SPLIT's first step -/

section

variable {i : Instr} {s : State} (hi : i = .eval ∨ i = .split) (hjob : s.inflight = none) {c : FaultCode} {info : Word}

theorem exec_eval_eq (s : State) : exec .eval s = execEval s := rfl

include hi hjob

/-- The fault of EVAL, or of SPLIT with nothing in flight, is that of the first check that fails (R190, R191). -/
theorem exec_generation_faulted (h : ((s.genJob.paramTrap.or (s.genJob.rangeTrap s.params.lmemBytes)).or
    (overlapTrap (s.genJob.pairsOf i))) = some ⟨c, info⟩) : ∃ t, exec i s = .next t ∧ Faulted c info s t := by
  refine ⟨s.takeFault ⟨c, info⟩, ?_, faulted_takeFault s ⟨c, info⟩⟩
  rcases hi with rfl | rfl
  · have htrap : s.genJob.evalTrap s.params.lmemBytes = some ⟨c, info⟩ := h
    rw [exec_eval_eq, execEval, htrap]
  · have htrap : s.genJob.splitTrap s.params.lmemBytes = some ⟨c, info⟩ := h
    rw [exec_split_of_none hjob, State.splitRequest, htrap]

theorem exec_generation_paramTrap (h : s.genJob.paramTrap = some ⟨c, info⟩) :
    ∃ t, exec i s = .next t ∧ Faulted c info s t :=
  exec_generation_faulted hi hjob (by rw [h]; rfl)

theorem exec_generation_rangeTrap (hparam : s.genJob.paramTrap = none) (pre : List Region) {r : Region} (a : Word)
    (post : List Region)
    (hregions : [s.genJob.secretRegion, s.genJob.coefRegion, s.genJob.outRegion, s.genJob.descRegion] =
      pre ++ r :: post) (hbase : r.base = a.toNat) (hpre : ∀ q ∈ pre, q.base + q.len ≤ s.params.lmemBytes)
    (hr : ¬ r.base + r.len ≤ s.params.lmemBytes) :
    ∃ t, exec i s = .next t ∧ Faulted .addressRange a s t := by
  have htrap := rangeTrap_of_first pre post hpre hr
  rw [hbase, BitVec.ofNat_toNat, BitVec.setWidth_eq, ← hregions] at htrap
  exact exec_generation_faulted hi hjob (by rw [hparam, GenJob.rangeTrap, htrap]; rfl)

theorem exec_generation_overlapTrap (hparam : s.genJob.paramTrap = none)
    (hrange : s.genJob.rangeTrap s.params.lmemBytes = none) {p : Region × Region} (hmem : p ∈ s.genJob.pairsOf i)
    (h : overlap p.1 p.2 = true) : ∃ t, exec i s = .next t ∧ Faulted .bufferOverlap 0 s t :=
  exec_generation_faulted hi hjob (by rw [hparam, hrange, overlapTrap_of_mem hmem h]; rfl)

end

/-! ### The statements about the checks -/

/-- Settles O38: R182's three tests in their order. -/
theorem generationParametersAreValidatedFirst : Obligations.GenerationParametersAreValidatedFirst := by
  intro i s hi hjob
  refine ⟨fun hL => ?secret, fun hL1 hL2 hn => ?threshold, fun hL1 hL2 hn1 hn2 hT => ?count⟩
  case secret => exact exec_generation_paramTrap hi hjob (s.genJob.paramTrap_of_secLen hL)
  case threshold => exact exec_generation_paramTrap hi hjob (s.genJob.paramTrap_of_needed ⟨hL1, hL2⟩ hn)
  case count => exact exec_generation_paramTrap hi hjob (s.genJob.paramTrap_of_total ⟨hL1, hL2⟩ ⟨hn1, hn2⟩ hT)

/-- Settles O39: the range checks region by region, and then the pairs. -/
theorem generationRegionsAreChecked : Obligations.GenerationRegionsAreChecked := by
  intro i s hi hjob hL1 hL2 hn1 hn2 hT size S C O D fits
  have hparam := s.genJob.paramTrap_eq_none_iff.2 ⟨⟨hL1, hL2⟩, ⟨hn1, hn2⟩, hT⟩
  have range := exec_generation_rangeTrap hi hjob hparam
  refine ⟨fun hS => ?secret, fun hS hC => ?coefficients, fun hS hC hO => ?shares, fun hS hC hO hD => ?descriptors,
    fun hS hC hO hD hover => ?overlaps⟩
  case secret => exact range [] s.secAddr _ rfl rfl (by simp) hS
  case coefficients => exact range [S] s.coefAddr _ rfl rfl (by simpa using hS) hC
  case shares => exact range [S, C] s.outAddr _ rfl rfl (by simpa using ⟨hS, hC⟩) hO
  case descriptors => exact range [S, C, O] s.descAddr _ rfl rfl (by simpa using ⟨hS, hC, hO⟩) hD
  case overlaps =>
    have hrange : s.genJob.rangeTrap size = none :=
      (rangeTrap_eq_none_iff size [S, C, O, D]).2 (by simpa using ⟨hS, hC, hO, hD⟩)
    have eval (p : Region × Region) (hp : p ∈ s.genJob.evalPairs) :=
      exec_generation_overlapTrap hi hjob hparam hrange (s.genJob.mem_pairsOf i hp)
    rcases hover with h | h | h | h | h | ⟨rfl, h⟩
    · exact eval (s.genJob.outRegion, s.genJob.secretRegion) (by simp [GenJob.evalPairs]) h
    · exact eval (s.genJob.outRegion, s.genJob.coefRegion) (by simp [GenJob.evalPairs]) h
    · exact eval (s.genJob.descRegion, s.genJob.secretRegion) (by simp [GenJob.evalPairs]) h
    · exact eval (s.genJob.descRegion, s.genJob.coefRegion) (by simp [GenJob.evalPairs]) h
    · exact eval (s.genJob.outRegion, s.genJob.descRegion) (by simp [GenJob.evalPairs]) h
    · exact exec_generation_overlapTrap hi hjob hparam hrange (p := (s.genJob.coefRegion, s.genJob.secretRegion))
        (List.mem_append_right _ (List.mem_singleton.2 rfl)) h

/-! ### The Horner step (R180) -/

/-- HSTEP completes in every state, and writes the Horner step of its three operands as they stood before (R180). -/
theorem exec_hstep_onlyElement (rd rs1 rs2 : Reg) (s : State) : ∃ t, exec (.hstep rd rs1 rs2) s = .next t ∧
    OnlyElement rd (hornerStep (s.elem rd) (s.elem rs1) (s.elem rs2)) s t :=
  ⟨_, rfl, onlyElement_setElem s rd _⟩

/-- Settles O37: the corner cases are those of the product. -/
theorem hstepIsOneHornerStep : Obligations.HstepIsOneHornerStep := by
  refine ⟨fun rd rs1 rs2 => ⟨inRow_of_wellFormed rfl, exec_hstep_onlyElement rd rs1 rs2⟩, fun res ak => ?_, by decide⟩
  exact ⟨by simp [hornerStep, gxor], by simp [hornerStep, gxor], hornerStep_zero res ak⟩

/-! ### SPLIT's request, and its failure (R188) -/

/-- Settles O41: the checks pass, and the request writes what is in flight alone. -/
theorem splitRequestWaitsOnTheRng : Obligations.SplitRequestWaitsOnTheRng := by
  refine ⟨inRow_of_wellFormed rfl, fun s hjob haccepted => ?_⟩
  have htrap := (s.genJob.splitTrap_eq_none_iff_accepted _).2 haccepted
  refine ⟨{ s with inflight := some s.genJob }, ?_, rfl, rfl, rfl, rfl, rfl, rfl, rfl, ⟨rfl, rfl, rfl, rfl, rfl⟩,
    fun _ => rfl, ⟨⟨rfl, rfl, rfl, rfl, rfl, rfl, rfl⟩, rfl, rfl⟩, fun _ => rfl, ⟨rfl, rfl⟩, rfl, rfl, rfl, rfl, rfl⟩
  rw [exec_split_of_none hjob, State.splitRequest, htrap]

/-- Settles O43: the fault is taken from the state in which the answer is off the script. -/
theorem unavailableRandomnessFaults : Obligations.UnavailableRandomnessFaults := by
  intro s j hjob hans
  refine ⟨s.consumeAnswer.takeFault ⟨.randomUnavailable, BitVec.ofNat 32 j.coefBytes⟩, ?_, faulted_takeFault _ _⟩
  rw [exec_split_of_some hjob, State.splitAnswer, hans]

end Sys2Proof.Machine
end

section
/-! SUPPORT. What a generation leaves in LMEM (R186 to R189): the share bytes, the records and the bytes outside its
regions; and so EVAL (R190) and the completion of SPLIT (R191). -/

namespace Sys2Proof.Machine

/-! ### Writes of whole lists of bytes -/

theorem State.readByte_writeBytes_of_getElem? (s : State) (a : Nat) {bs : List Byte} {i : Nat} {b : Byte}
    (h : bs[i]? = some b) : (s.writeBytes a bs).readByte (a + i) = b := by
  obtain ⟨hi, rfl⟩ := List.getElem?_eq_some_iff.1 h
  exact s.readByte_writeBytes_inside a bs hi

/-- The bytes of LMEM in a part of what was written are that part. -/
theorem State.readBytes_writeBytes (s : State) (a : Nat) (bs : List Byte) {k n : Nat} (h : k + n ≤ bs.length) :
    (s.writeBytes a bs).readBytes (a + k) n = (bs.drop k).take n := by
  refine List.ext_getElem (by simp; omega) fun i hi _ => ?_
  rw [readBytes_length] at hi
  simp only [readBytes, List.getElem_map, List.getElem_range, List.getElem_take, List.getElem_drop]
  rw [Nat.add_assoc, s.readByte_writeBytes_inside a bs (by omega)]

/-- The advance of PC does not show in LMEM. -/
theorem SameMemoryOutside.advance {rs : List Region} {s t : State} (h : SameMemoryOutside rs s t) :
    SameMemoryOutside rs s t.advance := h

/-! ### The outputs of a generation (R189) -/

/-- What a generation leaves in LMEM: the share bytes are the values of the polynomials with these higher coefficients
and these secret bytes, position by position, and the records describe the shares (R187, R189). -/
structure GenerationOutputs (j : GenJob) (higher : Nat → List Byte) (secret : Nat → Byte) (t : State) : Prop where
  share : ∀ i pos, i < j.total.toNat → pos < j.secLen.toNat →
    t.readByte (j.outAddr.toNat + i * j.secLen.toNat + pos) =
      horner (BitVec.ofNat 8 (i + 1)) (higher pos ++ [secret pos])
  record : ∀ i, i < j.total.toNat → (t.read16 (j.descAddr.toNat + 8 * i)).toNat = i + 1 ∧
    (t.read16 (j.descAddr.toNat + 8 * i + 2)).toNat = j.secLen.toNat ∧
    (t.read32 (j.descAddr.toNat + 8 * i + 4)).toNat = j.outAddr.toNat + i * j.secLen.toNat

theorem GenerationOutputs.advance {j : GenJob} {higher : Nat → List Byte} {secret : Nat → Byte} {t : State}
    (h : GenerationOutputs j higher secret t) : GenerationOutputs j higher secret t.advance := ⟨h.share, h.record⟩

/-- Only the coefficients of the positions in the secret count. -/
theorem GenerationOutputs.congr {j : GenJob} {higher higher' : Nat → List Byte} {secret secret' : Nat → Byte}
    {t : State} (h : GenerationOutputs j higher secret t)
    (heq : ∀ pos, pos < j.secLen.toNat → higher pos = higher' pos ∧ secret pos = secret' pos) :
    GenerationOutputs j higher' secret' t := by
  refine ⟨fun i pos hi hpos => ?_, h.record⟩
  obtain ⟨hhigher, hsecret⟩ := heq pos hpos
  rw [h.share i pos hi hpos, hhigher, hsecret]

section generate

variable (s : State) (j : GenJob)

/-- The coefficients of a byte position but the secret byte, highest degree first (R186). -/
def State.higherCoefficients (pos : Nat) : List Byte :=
  s.readBytes (j.coefAddr.toNat + pos * (j.needed.toNat - 1)) (j.needed.toNat - 1)

/-- The secret byte of a position (R186). -/
def State.secretByte (pos : Nat) : Byte := s.readByte (j.secAddr.toNat + pos)

@[simp] theorem State.higherCoefficients_length (pos : Nat) :
    (s.higherCoefficients j pos).length = j.needed.toNat - 1 := s.readBytes_length _ _

/-- Share byte `pos` of share i + 1 stands at offset i * L + pos of the share bytes (R189). -/
theorem State.shareBytes_getElem? {i pos : Nat} (hi : i < j.total.toNat) (hpos : pos < j.secLen.toNat) :
    (s.shareBytes j)[i * j.secLen.toNat + pos]? = some (s.shareByte j (i + 1) pos) := by
  rw [shareBytes, flatMap_getElem?_const _ _ _ (by simp) i pos (by simpa using hi) hpos]
  simp [hpos]

/-- Byte k of record i stands at offset 8 * i + k of the descriptors (R189). -/
theorem GenJob.descBytes_getElem? {i k : Nat} (hi : i < j.total.toNat) (hk : k < 8) :
    j.descBytes[8 * i + k]? = (j.descriptor i)[k]? := by
  rw [descBytes, Nat.mul_comm, flatMap_getElem?_const _ _ 8 (by simp) i k (by simpa using hi) hk, List.getElem_range]

theorem State.generate_readByte (a : Nat) : (s.generate j).readByte a =
    ((s.writeBytes j.outRegion.base (s.shareBytes j)).writeBytes j.descRegion.base j.descBytes).readByte a := rfl

/-- Outside O and D every byte of LMEM is as before (R189). -/
theorem State.generate_sameMemoryOutside : SameMemoryOutside [j.outRegion, j.descRegion] s (s.generate j) := by
  intro a ha
  rw [generate_readByte, State.readByte_writeBytes_region (r := j.descRegion) _ (by simp) (ha _ (by simp)),
    State.readByte_writeBytes_region (r := j.outRegion) _ (by simp) (ha _ (by simp))]

/-- A generation writes no element register, and of the parameter CSRs COUNT alone (R181, R189). -/
theorem State.generate_sameElements : SameElements s (s.generate j).advance := State.elem_congr (by simp)

theorem State.generate_sameInputCsrs : SameInputCsrs s (s.generate j).advance := by simp [SameInputCsrs]

variable {s j}

theorem State.generate_readByte_share (hOD : overlap j.outRegion j.descRegion = false) {i pos : Nat}
    (hi : i < j.total.toNat) (hpos : pos < j.secLen.toNat) :
    (s.generate j).readByte (j.outAddr.toNat + i * j.secLen.toNat + pos) = s.shareByte j (i + 1) pos := by
  have hget := s.shareBytes_getElem? j hi hpos
  have hlt : i * j.secLen.toNat + pos < j.total.toNat * j.secLen.toNat := by
    simpa using (List.getElem?_eq_some_iff.1 hget).1
  have hout : j.descRegion.has (j.outAddr.toNat + (i * j.secLen.toNat + pos)) = false :=
    not_has_of_overlap_eq_false hOD (by simpa using hlt)
  rw [Nat.add_assoc, generate_readByte, State.readByte_writeBytes_region (r := j.descRegion) _ (by simp) hout]
  exact readByte_writeBytes_of_getElem? _ _ hget

theorem State.generate_readByte_record {i k : Nat} (hi : i < j.total.toNat) (hk : k < 8) {b : Byte}
    (h : (j.descriptor i)[k]? = some b) : (s.generate j).readByte (j.descAddr.toNat + 8 * i + k) = b := by
  rw [generate_readByte, Nat.add_assoc]
  exact readByte_writeBytes_of_getElem? _ _ ((j.descBytes_getElem? hi hk).trans h)

/-- The record of share i + 1: its point, its length and its address (R189, R211). -/
theorem State.generate_record {i : Nat} (hi : i < j.total.toNat) :
    (s.generate j).read16 (j.descAddr.toNat + 8 * i) = (BitVec.ofNat 32 (i + 1)).extractLsb' 0 16 ∧
    (s.generate j).read16 (j.descAddr.toNat + 8 * i + 2) = j.secLen.extractLsb' 0 16 ∧
    (s.generate j).read32 (j.descAddr.toNat + 8 * i + 4) = BitVec.ofNat 32 (j.outAddr.toNat + i * j.secLen.toNat) := by
  have byte {k : Nat} (hk : k < 8) {b : Byte} := State.generate_readByte_record (s := s) hi hk (b := b)
  refine ⟨State.read16_eq_extract _ _ _ ?_ ?_, State.read16_eq_extract _ _ _ ?_ ?_, State.read32_eq _ _ _ ?_ ?_ ?_ ?_⟩
  · exact byte (k := 0) (by omega) rfl
  · exact byte (k := 1) (by omega) rfl
  · exact byte (k := 2) (by omega) rfl
  · exact byte (k := 3) (by omega) rfl
  · exact byte (k := 4) (by omega) rfl
  · exact byte (k := 5) (by omega) rfl
  · exact byte (k := 6) (by omega) rfl
  · exact byte (k := 7) (by omega) rfl

/-- An accepted generation leaves the outputs of the coefficients and the secret as LMEM held them. -/
theorem State.generate_outputs {split : Bool} {p : Config.Params} (h : j.Accepted p.lmemBytes split) :
    GenerationOutputs j (s.higherCoefficients j) (s.secretByte j) (s.generate j) := by
  obtain ⟨⟨-, hL⟩, -, hT, -, -, hO, -, -, -, -, -, hOD, -⟩ := h
  refine ⟨fun i pos hi hpos => generate_readByte_share hOD hi hpos, fun i hi => ?_⟩
  obtain ⟨hx, hlen, hptr⟩ := State.generate_record (s := s) hi
  have hsize := lmemBytes_bounds p
  have hle : i * j.secLen.toNat ≤ j.total.toNat * j.secLen.toNat := Nat.mul_le_mul_right _ hi.le
  rw [hx, hlen, hptr]
  simp only [BitVec.extractLsb'_toNat, BitVec.toNat_ofNat, Nat.shiftRight_zero] at hO ⊢
  omega

end generate

/-! ### EVAL (R190) -/

section eval

variable {s : State} (h : s.genJob.Accepted s.params.lmemBytes false)

include h

theorem exec_eval_of_accepted : exec .eval s = .next (s.generate s.genJob).advance := by
  rw [exec_eval_eq, execEval, (s.genJob.evalTrap_eq_none_iff_accepted _).2 h]

theorem eval_outputs : GenerationOutputs s.genJob (s.higherCoefficients s.genJob) (s.secretByte s.genJob)
    (s.generate s.genJob).advance := (State.generate_outputs h).advance

end eval

/-- Settles O40: the outputs of the generation, as R189 numbers the shares from 1. -/
theorem evalWritesSharesAndDescriptors : Obligations.EvalWritesSharesAndDescriptors := by
  refine ⟨inRow_of_wellFormed rfl, fun s h => ?_⟩
  obtain ⟨hshare, hrecord⟩ := eval_outputs h
  refine ⟨_, exec_eval_of_accepted h, fun x pos hx1 hxT hpos => ?_, hrecord, rfl, by simp,
    s.generate_sameInputCsrs _, s.generate_sameElements _, by simp [completed_iff],
    SameMemoryOutside.advance (s.generate_sameMemoryOutside s.genJob)⟩
  obtain ⟨i, rfl⟩ : ∃ i, x = i + 1 := ⟨x - 1, by omega⟩
  exact hshare i pos hxT hpos

/-! ### The completion of SPLIT (R188, R191) -/

section split

/-- SPLIT's state when the answer stands in C and nothing is in flight (R188; log 3). -/
def State.takeAnswer (s : State) (j : GenJob) (r : List Byte) : State :=
  { s.consumeAnswer.writeBytes j.coefAddr.toNat r with inflight := none }

variable {s : State} {j : GenJob} {r : List Byte}

theorem State.takeAnswer_readByte (a : Nat) :
    (s.takeAnswer j r).readByte a = (s.writeBytes j.coefAddr.toNat r).readByte a := rfl

theorem State.takeAnswer_readBytes (a n : Nat) :
    (s.takeAnswer j r).readBytes a n = (s.writeBytes j.coefAddr.toNat r).readBytes a n := rfl

theorem exec_split_of_answer (hjob : s.inflight = some j) (hans : s.rngAnswer = .bytes r)
    (hlen : r.length = j.coefBytes) : exec .split s = .next ((s.takeAnswer j r).generate j).advance := by
  rw [exec_split_of_some hjob, State.splitAnswer, hans]
  exact congrArg _ (if_pos hlen)

/-- What SPLIT's completion does to the registers it does not share with EVAL (R188, R191; log 3). -/
theorem split_registers : ((s.takeAnswer j r).generate j).advance.secLen = s.secLen ∧
    SameControl s ((s.takeAnswer j r).generate j).advance ∧
    ((s.takeAnswer j r).generate j).advance.pc = s.pc + 4 ∧
    ((s.takeAnswer j r).generate j).advance.inflight = none ∧
    ((s.takeAnswer j r).generate j).advance.rngWait = false ∧
    SameSurroundings s ((s.takeAnswer j r).generate j).advance := by
  simp [State.takeAnswer, SameControl, SameSurroundings, State.rngWait]

theorem split_status : ((s.takeAnswer j r).generate j).advance.busy = s.busy ∧
    ((s.takeAnswer j r).generate j).advance.done = s.done ∧
    ((s.takeAnswer j r).generate j).advance.err = s.err ∧
    ((s.takeAnswer j r).generate j).advance.errCode = s.errCode ∧
    ((s.takeAnswer j r).generate j).advance.draws = s.draws + 1 ∧
    ((s.takeAnswer j r).generate j).advance.rngScript = s.rngScript.tail := by
  simp [State.takeAnswer]

variable (h : j.Accepted s.params.lmemBytes true) (hlen : r.length = j.coefBytes)

include hlen

/-- The coefficients of a position are its part of the answer (R186, R188). -/
theorem State.takeAnswer_higherCoefficients {pos : Nat} (hpos : pos < j.secLen.toNat) :
    (s.takeAnswer j r).higherCoefficients j pos = (r.drop (pos * (j.needed.toNat - 1))).take (j.needed.toNat - 1) := by
  have hle : (pos + 1) * (j.needed.toNat - 1) ≤ j.coefBytes := Nat.mul_le_mul_right _ hpos
  rw [Nat.succ_mul] at hle
  rw [higherCoefficients, takeAnswer_readBytes, State.readBytes_writeBytes _ _ _ (by omega)]

/-- Outside C, O and D every byte of LMEM is as before. -/
theorem split_sameMemoryOutside : SameMemoryOutside [j.coefRegion, j.outRegion, j.descRegion] s
    ((s.takeAnswer j r).generate j).advance := by
  intro a ha
  have hgen := (s.takeAnswer j r).generate_sameMemoryOutside j a fun q hq => ha q (List.mem_cons_of_mem _ hq)
  exact hgen.trans (s.readByte_writeBytes_region (r := j.coefRegion) hlen (ha _ (by simp)))

include h

/-- The secret stands outside C (R185). -/
theorem State.takeAnswer_secretByte {pos : Nat} (hpos : pos < j.secLen.toNat) :
    (s.takeAnswer j r).secretByte j pos = s.secretByte j pos := by
  obtain ⟨-, -, -, -, -, -, -, -, -, -, -, -, hCS⟩ := h
  have hapart := (overlap_eq_false_iff j.coefRegion j.secretRegion).1 (hCS rfl)
  refine s.readByte_writeBytes_region (r := j.coefRegion) hlen ((Region.has_eq_false_iff _ _).2 ?_)
  simp only [GenJob.coefRegion_base, GenJob.coefRegion_len, GenJob.secretRegion_base, GenJob.secretRegion_len]
    at hapart ⊢
  omega

/-- SPLIT leaves the outputs of the answer's coefficients and the secret. -/
theorem split_outputs : GenerationOutputs j (fun pos => (r.drop (pos * (j.needed.toNat - 1))).take (j.needed.toNat - 1))
    (s.secretByte j) ((s.takeAnswer j r).generate j).advance :=
  (State.generate_outputs h).advance.congr fun _ hpos =>
    ⟨State.takeAnswer_higherCoefficients hlen hpos, State.takeAnswer_secretByte h hlen hpos⟩

/-- The answer stands in C, which the outputs do not reach (R185). -/
theorem split_readByte_coefficients {k : Nat} (hk : k < r.length) :
    ((s.takeAnswer j r).generate j).advance.readByte (j.coefAddr.toNat + k) = r.getD k 0 := by
  obtain ⟨-, -, -, -, -, -, -, -, hOC, -, hDC, -, -⟩ := h
  have hC : j.coefRegion.has (j.coefAddr.toNat + k) = true := (Region.has_iff _ _).2 ⟨by simp, by simp; omega⟩
  have notIn {q : Region} (hq : overlap q j.coefRegion = false) : q.has (j.coefAddr.toNat + k) = false :=
    Bool.eq_false_iff.2 fun hin => absurd (not_has_of_overlap_eq_false hq hin) (by simp [hC])
  have hgen := (s.takeAnswer j r).generate_sameMemoryOutside j (j.coefAddr.toNat + k)
    (by simpa using ⟨notIn hOC, notIn hDC⟩)
  rw [List.getD_eq_getElem _ _ hk]
  exact hgen.trans (s.readByte_writeBytes_inside _ r hk)

end split

/-- Settles O42: the outputs of the generation with the answer in C. -/
theorem splitCompletesWithTheRandomBytes : Obligations.SplitCompletesWithTheRandomBytes := by
  intro s j r hjob h hans hlen L n T
  obtain ⟨hshare, hrecord⟩ := split_outputs h hlen
  obtain ⟨hsecLen, hcontrol, hpc, hinflight, hwait, hsurroundings⟩ := split_registers (s := s) (j := j) (r := r)
  obtain ⟨hbusy, hdone, herr, herrCode, hdraws, hscript⟩ := split_status (s := s) (j := j) (r := r)
  refine ⟨_, exec_split_of_answer hjob hans hlen, fun k => split_readByte_coefficients h hlen,
    fun x pos hx1 hxT hpos => ?_, hrecord, rfl, hsecLen, (s.takeAnswer j r).generate_sameInputCsrs j,
    (s.takeAnswer j r).generate_sameElements j, hcontrol, hpc, hinflight, hwait, hbusy, hdone, herr, herrCode, hdraws,
    hscript, hsurroundings, split_sameMemoryOutside hlen⟩
  obtain ⟨i, rfl⟩ : ∃ i, x = i + 1 := ⟨x - 1, by omega⟩
  exact hshare i pos hxT hpos

end Sys2Proof.Machine
end

section
/-! SUPPORT. RECOVER on the shares of a generation (R192, R219): the points of an accepted share set are distinct, so
that no check fails and Lagrange's formula gives the secret back. -/

namespace Sys2Proof.Machine

/-! ### An accepted share set -/

/-- The points of a share set that passes the X checks are distinct bytes (R212). -/
theorem State.ShareSetAccepted.xCoords_nodup {s : State} {lc : Bool} (h : s.ShareSetAccepted true lc) :
    s.xCoords.Nodup := by
  obtain ⟨-, -, hrecords⟩ := h
  have hnodup := s.shareSet_x_nodup_iff.2 fun i hi => ((hrecords i hi).1 rfl).2
  have hle : ∀ d ∈ s.shareSet, d.x.toNat ≤ 255 := by
    intro d hd
    obtain ⟨i, hi, rfl⟩ := List.mem_map.1 hd
    exact ((hrecords i (List.mem_range.1 hi)).1 rfl).1.2
  refine (List.Nodup.of_map _ hnodup).map_on fun d hd e he hde => ?_
  refine List.inj_on_of_nodup_map hnodup hd he (BitVec.eq_of_toNat_eq ?_)
  have htoNat := congrArg BitVec.toNat hde
  rwa [BitVec.toNat_setWidth, BitVec.toNat_setWidth, Nat.mod_eq_of_lt (Nat.lt_succ_of_le (hle d hd)),
    Nat.mod_eq_of_lt (Nat.lt_succ_of_le (hle e he))] at htoNat

/-- After the X checks no weight has a zero denominator (R266). -/
theorem State.ShareSetAccepted.weightTrap_eq_none {s : State} {lc : Bool} (h : s.ShareSetAccepted true lc) :
    s.weightTrap = none := by
  rw [weightTrap, zeroDenominator_eq_none h.xCoords_nodup, Option.map_none]

theorem State.CombineAccepted.shareSetAccepted {s : State} {recover : Bool} (h : s.CombineAccepted recover) :
    s.ShareSetAccepted recover true := And.left h

/-- RECOVER's state when its checks pass (R219). -/
def State.recoverDone (s : State) : State :=
  ((s.writeBytes s.wAddr.toNat s.weights).writeRecovered (s.recovered s.weights) s.shareLen).advance

theorem exec_recover_of_accepted {s : State} (h : s.CombineAccepted true) : exec .recover s = .next s.recoverDone := by
  have hset := State.CombineAccepted.shareSetAccepted h
  have htrap := s.recoverTrap_eq_none_iff_accepted.2 ⟨h, hset.weightTrap_eq_none⟩
  show execRecover s = _
  rw [execRecover, htrap]
  rfl

/-- The recovered bytes stand at SEC_ADDR (R216). -/
theorem State.recoverDone_readByte {s : State} {pos : Nat} (hpos : pos < s.shareLen.toNat) :
    s.recoverDone.readByte (s.secAddr.toNat + pos) =
      combine (s.shareSet.map fun d => s.readByte (d.ptr.toNat + pos)) s.weights := by
  refine ((s.writeBytes s.wAddr.toNat s.weights).readByte_writeBytes_inside s.secAddr.toNat
    (s.recovered s.weights) (by rwa [recovered_length])).trans ?_
  simp only [recovered, List.getElem_map, List.getElem_range]

/-! ### The shares of a generation, taken as a share set -/

section

variable {j : GenJob} {picks : List Nat} {t u : State} (hpicks : SharesTaken j picks t u)

include hpicks

/-- What is read off each record of the share set is read off each share taken. -/
theorem SharesTaken.map_shareSet {β : Type} {f : Desc → β} {g : Nat → β}
    (h : ∀ i k, picks[i]? = some k → f (u.descAt i) = g k) : u.shareSet.map f = picks.map g := by
  refine List.ext_getElem (by simp [hpicks.count]) fun i _ hi => ?_
  rw [List.length_map] at hi
  simpa [State.shareSet] using h i picks[i] (List.getElem?_eq_getElem hi)

variable {higher : Nat → List Byte} {secret : Nat → Byte} (ht : GenerationOutputs j higher secret t)

include ht

/-- A record of the share set describes the share it was taken from. -/
theorem SharesTaken.descAt {i k : Nat} (hk : picks[i]? = some k) : (u.descAt i).x.toNat = k + 1 ∧
    (u.descAt i).len.toNat = j.secLen.toNat ∧
    (u.descAt i).ptr.toNat = j.outAddr.toNat + k * j.secLen.toNat := by
  obtain ⟨hx, hlen, hptr⟩ := hpicks.records i k hk
  rw [State.descAt, hx, hlen, hptr]
  exact ht.record k (hpicks.inTable k (List.mem_of_getElem? hk))

theorem SharesTaken.shareLen_eq (hne : picks ≠ []) : u.shareLen.toNat = j.secLen.toNat := by
  obtain ⟨-, hlen, -⟩ := hpicks.descAt ht (List.getElem?_eq_getElem (List.length_pos_iff.2 hne))
  exact hlen

/-- The points are those of the shares taken. -/
theorem SharesTaken.xCoords_eq : u.xCoords = picks.map fun k => BitVec.ofNat 8 (k + 1) := by
  refine hpicks.map_shareSet fun i k hk => BitVec.eq_of_toNat_eq ?_
  obtain ⟨hx, -, -⟩ := hpicks.descAt ht hk
  rw [BitVec.toNat_setWidth, hx, BitVec.toNat_ofNat]

/-- The bytes of the shares at a position are the values of its polynomial at their points. -/
theorem SharesTaken.shareBytes_eq {pos : Nat} (hpos : pos < j.secLen.toNat) :
    (u.shareSet.map fun d => u.readByte (d.ptr.toNat + pos)) =
      u.xCoords.map fun x => horner x (higher pos ++ [secret pos]) := by
  rw [hpicks.xCoords_eq ht, List.map_map]
  refine hpicks.map_shareSet fun i k hk => ?_
  have hmem := List.mem_of_getElem? hk
  obtain ⟨-, -, hptr⟩ := hpicks.descAt ht hk
  rw [hptr, hpicks.bytes k hmem pos hpos, ht.share k pos (hpicks.inTable k hmem) hpos, Function.comp]

end

/-- RECOVER undoes every generation whose polynomials have degree below `needed` (R192). -/
theorem recoversSecret_of_outputs {j : GenJob} {s t : State} {higher : Nat → List Byte}
    (ht : GenerationOutputs j higher (s.secretByte j) t) (hn : 2 ≤ j.needed.toNat)
    (hhigher : ∀ pos, pos < j.secLen.toNat → (higher pos).length = j.needed.toNat - 1) : RecoversSecret j s t := by
  intro picks u hneeded hpicks haccepted
  have hset := State.CombineAccepted.shareSetAccepted haccepted
  have hlen := hpicks.shareLen_eq ht (List.ne_nil_of_length_pos (by omega))
  refine ⟨u.recoverDone, exec_recover_of_accepted haccepted, BitVec.eq_of_toNat_eq ?_, fun pos hpos => ?_⟩
  · have hlt := u.shareLen.isLt
    show (u.shareLen.setWidth 32).toNat = _
    rw [BitVec.toNat_setWidth, hlen]
    omega
  · have hcount : u.xCoords.length = picks.length := by rw [hpicks.xCoords_eq ht, List.length_map]
    rw [State.recoverDone_readByte (by rwa [hlen]), hpicks.shareBytes_eq ht hpos, State.weights]
    exact combine_horner (hset.xCoords_nodup) _ (by rw [hhigher pos hpos]; omega)

theorem GenJob.Accepted.two_le_needed {j : GenJob} {size : Nat} {split : Bool} (h : j.Accepted size split) :
    2 ≤ j.needed.toNat := by
  obtain ⟨-, ⟨hn, -⟩, -⟩ := h
  exact hn

/-! ### The statements about RECOVER -/

/-- Settles O51: EVAL takes the `needed` - 1 higher coefficients of each position from LMEM. -/
theorem recoverUndoesEval : Obligations.RecoverUndoesEval := by
  intro s h
  have hn := GenJob.Accepted.two_le_needed h
  exact ⟨_, exec_eval_of_accepted h, recoversSecret_of_outputs (eval_outputs h) hn fun pos _ => by simp⟩

/-- Settles O60: SPLIT takes them from the RNG's answer, which is long enough for each position. -/
theorem recoverUndoesSplit : Obligations.RecoverUndoesSplit := by
  intro s j r hjob h hans hlen
  have hn := GenJob.Accepted.two_le_needed h
  have hout := split_outputs h hlen
  refine ⟨_, exec_split_of_answer hjob hans hlen, recoversSecret_of_outputs hout hn fun pos hpos => ?_⟩
  rw [← State.takeAnswer_higherCoefficients (s := s) hlen hpos, State.higherCoefficients_length]

end Sys2Proof.Machine
end

section
/-! SUPPORT. The checks of LWGT, LCOMB and RECOVER (R212, R213, R215): the validation walks the records, and the first
check that fails, of the share set, of a region or of a pair, is the fault that the command takes. -/

namespace Sys2Proof.Machine

/-! ### The records of the share set (R211, R212) -/

section records

variable (s : State) (xc lc : Bool)

/-- Record i fails the range of R212's X checks. -/
def State.XOutOfRange (i : Nat) : Prop := xc = true ∧ ((s.descAt i).x.toNat < 1 ∨ 255 < (s.descAt i).x.toNat)

/-- Record i repeats the x of an earlier one, against R212's X checks. -/
def State.XRepeated (i : Nat) : Prop := xc = true ∧ ∃ k, k < i ∧ (s.descAt k).x = (s.descAt i).x

/-- Record i fails R212's L checks. -/
def State.LenInconsistent (i : Nat) : Prop :=
  lc = true ∧ ((s.descAt i).len.toNat = 0 ∨ (s.descAt i).len ≠ s.shareLen)

/-- The x-coordinates of the records before record i, the last first. -/
def State.xBefore (i : Nat) : List (BitVec 16) := ((List.range i).map fun k => (s.descAt k).x).reverse

theorem State.xBefore_succ (i : Nat) : s.xBefore (i + 1) = (s.descAt i).x :: s.xBefore i := by
  simp [xBefore, List.range_succ]

theorem State.xRepeated_iff (i : Nat) : s.XRepeated xc i ↔ xc = true ∧ (s.descAt i).x ∈ s.xBefore i := by
  simp [XRepeated, xBefore]

/-- The validation from record i on (R212). -/
def State.validateFrom (i : Nat) : Option Trap :=
  recordTrap xc lc s.shareLen i (s.xBefore i) (s.shareSet.drop i)

variable {s xc lc} {i : Nat}

theorem State.drop_shareSet (hi : i < s.count.toNat) : s.shareSet.drop i = s.descAt i :: s.shareSet.drop (i + 1) := by
  rw [List.drop_eq_getElem_cons (by simpa using hi)]
  simp [shareSet]

section

variable (hi : i < s.count.toNat)

include hi

theorem State.validateFrom_of_xOutOfRange (hx : s.XOutOfRange xc i) :
    s.validateFrom xc lc i = some ⟨.outOfRangeX, BitVec.ofNat 32 i⟩ := by
  rw [validateFrom, drop_shareSet hi]
  exact if_pos hx

theorem State.validateFrom_of_xRepeated (hx : ¬s.XOutOfRange xc i) (hrep : s.XRepeated xc i) :
    s.validateFrom xc lc i = some ⟨.duplicateX, BitVec.ofNat 32 i⟩ := by
  rw [xRepeated_iff] at hrep
  rw [validateFrom, drop_shareSet hi]
  exact (if_neg hx).trans (if_pos hrep)

theorem State.validateFrom_of_lenInconsistent (hx : ¬s.XOutOfRange xc i) (hrep : ¬s.XRepeated xc i)
    (hlen : s.LenInconsistent lc i) :
    s.validateFrom xc lc i = some ⟨.inconsistentShareLength, BitVec.ofNat 32 i⟩ := by
  rw [xRepeated_iff] at hrep
  rw [validateFrom, drop_shareSet hi]
  exact (if_neg hx).trans ((if_neg hrep).trans (if_pos hlen))

theorem State.validateFrom_of_passed (hx : ¬s.XOutOfRange xc i) (hrep : ¬s.XRepeated xc i)
    (hlen : ¬s.LenInconsistent lc i) : s.validateFrom xc lc i = s.validateFrom xc lc (i + 1) := by
  rw [xRepeated_iff] at hrep
  rw [validateFrom, validateFrom, drop_shareSet hi, xBefore_succ]
  exact (if_neg hx).trans ((if_neg hrep).trans (if_neg hlen))

end

/-- The validation reaches a record when all records before it pass. -/
theorem State.validateFrom_zero (hi : i ≤ s.count.toNat)
    (hpassed : ∀ k, k < i → ¬s.XOutOfRange xc k ∧ ¬s.XRepeated xc k ∧ ¬s.LenInconsistent lc k) :
    s.validateFrom xc lc 0 = s.validateFrom xc lc i := by
  induction i with
  | zero => rfl
  | succ i ih =>
    obtain ⟨hx, hrep, hlen⟩ := hpassed i i.lt_succ_self
    rw [ih (by omega) fun k hk => hpassed k (by omega), validateFrom_of_passed hi hx hrep hlen]

theorem State.shareSetTrap_of_count (h : s.count.toNat < 2) :
    s.shareSetTrap xc lc = some ⟨.insufficientShares, s.count⟩ := if_pos h

theorem State.shareSetTrap_of_table (hN : 2 ≤ s.count.toNat)
    (h : s.params.lmemBytes < s.descAddr.toNat + 8 * s.count.toNat) :
    s.shareSetTrap xc lc = some ⟨.addressRange, s.descAddr⟩ :=
  (if_neg (by omega)).trans (if_neg (by rw [inRange_iff]; omega))

theorem State.shareSetTrap_of_records (hN : 2 ≤ s.count.toNat)
    (h : s.descAddr.toNat + 8 * s.count.toNat ≤ s.params.lmemBytes) :
    s.shareSetTrap xc lc = s.validateFrom xc lc 0 :=
  (if_neg (by omega)).trans (if_pos ((s.inRange_iff _ _).2 h))

end records

/-! ### The regions and pairs of a reconstruction command (R213, R215) -/

/-- The reconstruction commands, with their use of the X checks and of the L checks (R212). -/
inductive Reconstructs : Instr → Bool → Bool → Prop where
  | lwgt : Reconstructs .lwgt true false
  | lcomb : Reconstructs .lcomb false true
  | recover : Reconstructs .recover true true

/-- Region Y_i, the bytes of share i (R213). -/
def State.yRegion (s : State) (i : Nat) : Region := ⟨(s.descAt i).ptr.toNat, s.shareLen.toNat⟩

theorem State.yRegions_eq (s : State) : s.yRegions = (List.range s.count.toNat).map s.yRegion := List.map_map

theorem State.yRegion_mem (s : State) {i : Nat} (hi : i < s.count.toNat) : s.yRegion i ∈ s.yRegions := by
  rw [yRegions_eq]
  exact List.mem_map_of_mem (List.mem_range.2 hi)

/-- The regions before and after Y_i among the Y regions. -/
theorem State.yRegions_split (s : State) {i : Nat} (hi : i < s.count.toNat) :
    s.yRegions = (List.range i).map s.yRegion ++ s.yRegion i :: s.yRegions.drop (i + 1) := by
  have hlen : i < s.yRegions.length := by simpa [yRegions_eq] using hi
  conv_lhs => rw [← List.take_append_drop i s.yRegions, List.drop_eq_getElem_cons hlen]
  simp [yRegions_eq, ← List.map_take, List.take_range, hi.le]

/-- The regions whose range LWGT checks, and for any other command those of LCOMB and RECOVER, in order (R213). -/
def State.checkedRegions (s : State) (c : Instr) : List Region :=
  if c = .lwgt then [s.weightRegion] else s.weightRegion :: s.yRegions ++ [s.recoveredRegion]

/-- The overlap pairs of LWGT, of LCOMB, and for any other command those of RECOVER (R215). -/
def State.checkedPairs (s : State) (c : Instr) : List (Region × Region) :=
  if c = .lwgt then s.lwgtPairs else if c = .lcomb then s.lcombPairs else s.recoverPairs

/-- Overlap is symmetric (R74). -/
theorem overlap_comm (p q : Region) : overlap p q = overlap q p := by
  simp only [overlap, Bool.and_comm, Bool.and_left_comm]

/-- The pairs that LCOMB and RECOVER have in common (R215). -/
theorem State.mem_checkedPairs_recovered {s : State} {c : Instr} {xc : Bool} (hc : Reconstructs c xc true) :
    (s.recoveredRegion, s.tableRegion) ∈ s.checkedPairs c ∧
    ((s.recoveredRegion, s.weightRegion) ∈ s.checkedPairs c ∨ (s.weightRegion, s.recoveredRegion) ∈ s.checkedPairs c) ∧
    ∀ i, i < s.count.toNat → (s.recoveredRegion, s.yRegion i) ∈ s.checkedPairs c := by
  have share (i : Nat) (hi : i < s.count.toNat) :
      (s.recoveredRegion, s.yRegion i) ∈ s.yRegions.map fun y => (s.recoveredRegion, y) :=
    List.mem_map_of_mem (s.yRegion_mem hi)
  cases hc with
  | lcomb => exact ⟨by simp [checkedPairs, lcombPairs], by simp [checkedPairs, lcombPairs], fun i hi =>
      .tail _ (.tail _ (share i hi))⟩
  | recover => exact ⟨by simp [checkedPairs, recoverPairs], by simp [checkedPairs, recoverPairs], fun i hi =>
      List.mem_append_left _ (List.mem_append_right _ (.tail _ (share i hi)))⟩

/-- The pairs that RECOVER has besides (R215). -/
theorem State.mem_checkedPairs_weights (s : State) : (s.weightRegion, s.tableRegion) ∈ s.checkedPairs .recover ∧
    ∀ i, i < s.count.toNat → (s.weightRegion, s.yRegion i) ∈ s.checkedPairs .recover :=
  ⟨.head _, fun _ hi => List.mem_append_left _ (List.mem_append_left _
    (.tail _ (List.mem_map_of_mem (s.yRegion_mem hi))))⟩

/-! ### The fault of a reconstruction command (R217 to R219) -/

theorem exec_lwgt_eq (s : State) : exec .lwgt s = execLwgt s := rfl

theorem exec_lcomb_eq (s : State) : exec .lcomb s = execLcomb s := rfl

theorem exec_recover_eq (s : State) : exec .recover s = execRecover s := rfl

section faults

variable {c : Instr} {xc lc : Bool} (hc : Reconstructs c xc lc) {s : State} {code : FaultCode} {info : Word}

include hc

/-- The fault of a reconstruction command is that of the first check that fails (R217 to R219). -/
theorem exec_reconstruction_faulted
    (h : ((s.shareSetTrap xc lc).or (rangeTrap s.params.lmemBytes (s.checkedRegions c))).or
      (overlapTrap (s.checkedPairs c)) = some ⟨code, info⟩) :
    ∃ t, exec c s = .next t ∧ Faulted code info s t := by
  refine ⟨s.takeFault ⟨code, info⟩, ?_, faulted_takeFault s ⟨code, info⟩⟩
  cases hc with
  | lwgt =>
    have htrap : s.lwgtTrap = some ⟨code, info⟩ := congrArg (Option.or · s.weightTrap) h
    rw [exec_lwgt_eq, execLwgt, htrap]
  | lcomb =>
    have htrap : s.lcombTrap = some ⟨code, info⟩ := h
    rw [exec_lcomb_eq, execLcomb, htrap]
  | recover =>
    have htrap : s.recoverTrap = some ⟨code, info⟩ := congrArg (Option.or · s.weightTrap) h
    rw [exec_recover_eq, execRecover, htrap]

theorem exec_reconstruction_shareSetTrap (h : s.shareSetTrap xc lc = some ⟨code, info⟩) :
    ∃ t, exec c s = .next t ∧ Faulted code info s t :=
  exec_reconstruction_faulted hc (by rw [h]; rfl)

theorem exec_reconstruction_rangeTrap (hset : s.ShareSetAccepted xc lc) (pre : List Region) {r : Region} (a : Word)
    (post : List Region) (hregions : s.checkedRegions c = pre ++ r :: post) (hbase : r.base = a.toNat)
    (hpre : ∀ q ∈ pre, q.base + q.len ≤ s.params.lmemBytes) (hr : ¬r.base + r.len ≤ s.params.lmemBytes) :
    ∃ t, exec c s = .next t ∧ Faulted .addressRange a s t := by
  have htrap := rangeTrap_of_first pre post hpre hr
  rw [hbase, BitVec.ofNat_toNat, BitVec.setWidth_eq, ← hregions] at htrap
  exact exec_reconstruction_faulted hc (by rw [(s.shareSetTrap_eq_none_iff_accepted xc lc).2 hset, htrap]; rfl)

/-- An overlap of two regions that are a pair, in either order (R74). -/
theorem exec_reconstruction_overlapTrap (hset : s.ShareSetAccepted xc lc)
    (hfit : ∀ r ∈ s.checkedRegions c, r.base + r.len ≤ s.params.lmemBytes) {p q : Region}
    (hmem : (p, q) ∈ s.checkedPairs c ∨ (q, p) ∈ s.checkedPairs c) (h : overlap p q = true) :
    ∃ t, exec c s = .next t ∧ Faulted .bufferOverlap 0 s t := by
  have htrap : overlapTrap (s.checkedPairs c) = some ⟨.bufferOverlap, 0⟩ := by
    rcases hmem with hmem | hmem
    · exact overlapTrap_of_mem hmem h
    · exact overlapTrap_of_mem hmem ((overlap_comm q p).trans h)
  refine exec_reconstruction_faulted hc ?_
  rw [(s.shareSetTrap_eq_none_iff_accepted xc lc).2 hset, (rangeTrap_eq_none_iff _ _).2 hfit, htrap]
  rfl

end faults

/-! ### The statements about the checks -/

/-- Settles O45: COUNT, the table, and then the walk over the records up to the first that fails. -/
theorem shareSetValidationReportsTheFirstFailure : Obligations.ShareSetValidationReportsTheFirstFailure := by
  intro c xc lc s hmem N x len badX dup badLen
  have hc : Reconstructs c xc lc := by
    simp only [List.mem_cons, List.not_mem_nil, or_false, Prod.mk.injEq] at hmem
    rcases hmem with ⟨rfl, rfl, rfl⟩ | ⟨rfl, rfl, rfl⟩ | ⟨rfl, rfl, rfl⟩
    exacts [.lwgt, .lcomb, .recover]
  refine ⟨fun hN => ?count, fun hN htable => ?table, fun hN htable i hi hpassed => ?records⟩
  case count => exact exec_reconstruction_shareSetTrap hc (State.shareSetTrap_of_count hN)
  case table => exact exec_reconstruction_shareSetTrap hc (State.shareSetTrap_of_table hN htable)
  case records =>
    have hwalk : s.shareSetTrap xc lc = s.validateFrom xc lc i :=
      (State.shareSetTrap_of_records hN htable).trans (State.validateFrom_zero hi.le hpassed)
    exact ⟨fun hx => exec_reconstruction_shareSetTrap hc (hwalk.trans (State.validateFrom_of_xOutOfRange hi hx)),
      fun hx hrep => exec_reconstruction_shareSetTrap hc (hwalk.trans (State.validateFrom_of_xRepeated hi hx hrep)),
      fun hx hrep hlen =>
        exec_reconstruction_shareSetTrap hc (hwalk.trans (State.validateFrom_of_lenInconsistent hi hx hrep hlen))⟩

/-- Settles O46: the range checks region by region, and then the pairs. -/
theorem reconstructionRegionsAreChecked : Obligations.ReconstructionRegionsAreChecked := by
  intro s fits N L ptr Dt W Y SEC
  refine ⟨fun hset => ⟨fun hW => ?weights, fun hW hover => ?weightsOverTable⟩, fun c x hmem hset => ?combine⟩
  case weights => exact exec_reconstruction_rangeTrap .lwgt hset [] s.wAddr [] rfl rfl (by simp) hW
  case weightsOverTable =>
    exact exec_reconstruction_overlapTrap .lwgt hset (by simpa [State.checkedRegions] using hW)
      (.inl (List.mem_singleton.2 rfl)) hover
  case combine =>
    have hc : Reconstructs c x true := by
      simp only [List.mem_cons, List.not_mem_nil, or_false, Prod.mk.injEq] at hmem
      rcases hmem with ⟨rfl, rfl⟩ | ⟨rfl, rfl⟩
      exacts [.lcomb, .recover]
    have hregions : s.checkedRegions c = W :: s.yRegions ++ [SEC] := by cases hc <;> rfl
    have range := exec_reconstruction_rangeTrap hc hset
    refine ⟨fun hW => ?weights, fun hW i hi hY hYi => ?share, fun hW hY hSEC => ?secret,
      fun hW hY hSEC hover => ?overlaps⟩
    case weights => exact range [] s.wAddr _ hregions rfl (by simp) hW
    case share =>
      refine range (W :: (List.range i).map s.yRegion) (r := s.yRegion i) (ptr i)
        (s.yRegions.drop (i + 1) ++ [SEC]) ?_ rfl (by simpa using ⟨hW, hY⟩) hYi
      rw [hregions]
      conv_lhs => rw [s.yRegions_split hi]
      simp
    case secret =>
      exact range (W :: s.yRegions) s.secAddr [] hregions rfl (by simpa [State.yRegions_eq] using ⟨hW, hY⟩) hSEC
    case overlaps =>
      have faults {p q : Region} := exec_reconstruction_overlapTrap (p := p) (q := q) hc hset
        (by simpa [hregions, State.yRegions_eq, or_imp, forall_and] using ⟨hW, hY, hSEC⟩)
      obtain ⟨hDt, hWeights, hShares⟩ := s.mem_checkedPairs_recovered hc
      rcases hover with h | h | ⟨i, hi, h⟩ | ⟨rfl, h⟩
      · exact faults (.inl hDt) h
      · exact faults hWeights h
      · exact faults (.inl (hShares i hi)) h
      · obtain ⟨hDt, hShares⟩ := s.mem_checkedPairs_weights
        rcases h with h | ⟨i, hi, h⟩
        · exact faults (.inl hDt) h
        · exact faults (.inl (hShares i hi)) h

end Sys2Proof.Machine
end

section
/-! SUPPORT. What LWGT, LCOMB and RECOVER write when their checks pass (R214, R216 to R219), and that the weights of an
accepted share set are quotients of nonzero products (R266). -/

namespace Sys2Proof.Machine

/-! ### The weights (R214, R266) -/

/-- The points in the words of the statements. -/
theorem State.xCoords_eq (s : State) : s.xCoords =
    (List.range s.count.toNat).map fun i => (s.read16 (s.descAddr.toNat + 8 * i)).setWidth 8 := List.map_map

@[simp] theorem State.xCoords_length (s : State) : s.xCoords.length = s.count.toNat := by simp [xCoords_eq]

theorem gquot_ne_zero {a b : Byte} (ha : a ≠ 0) (hb : b ≠ 0) : gquot a b ≠ 0 := by
  intro h
  have hmul := gmul_gquot a hb
  rw [h] at hmul
  exact ha (hmul.symm.trans (zero_gmul b))

/-- A product of points that are not zero is not zero. -/
theorem weightNum_ne_zero {xs : List Byte} (h : ∀ x ∈ xs, x ≠ 0) (i : Nat) : weightNum xs i ≠ 0 :=
  foldl_gmul_ne_zero (f := id) (fun x hx => h x (List.mem_of_mem_eraseIdx hx)) (by decide)

theorem weightDen_ne_zero {xs : List Byte} (hnodup : xs.Nodup) {i : Nat} (hi : i < xs.length) :
    weightDen xs i ≠ 0 := by
  rw [weightDen_eq hnodup hi]
  exact foldl_differences_ne_zero hnodup _

section accepted

variable {s : State} {lc : Bool} (h : s.ShareSetAccepted true lc)

include h

/-- The points of a share set that passes the X checks are not zero (R212). -/
theorem State.ShareSetAccepted.xCoords_ne_zero : ∀ x ∈ s.xCoords, x ≠ 0 := by
  obtain ⟨-, -, hrecords⟩ := h
  intro x hx h0
  rw [xCoords_eq] at hx
  obtain ⟨i, hi, rfl⟩ := List.mem_map.1 hx
  obtain ⟨hx1, hx255⟩ := ((hrecords i (List.mem_range.1 hi)).1 rfl).1
  have htoNat := congrArg BitVec.toNat h0
  rw [BitVec.toNat_setWidth, Nat.mod_eq_of_lt (by omega)] at htoNat
  have hzero : (0 : Byte).toNat = 0 := rfl
  omega

/-- LMEM holds the quotient of R214's products, its divisor not zero, once the weights are written at W_ADDR. -/
theorem State.ShareSetAccepted.gdiv_eq_weight {i : Nat} (hi : i < s.count.toNat) :
    gdiv (weightNum s.xCoords i) (weightDen s.xCoords i) =
      some ((s.writeBytes s.wAddr.toNat s.weights).readByte (s.wAddr.toNat + i)) := by
  rw [gdiv_of_ne_zero _ (weightDen_ne_zero h.xCoords_nodup (by simpa using hi)),
    s.readByte_writeBytes_inside s.wAddr.toNat s.weights (by simpa using hi)]
  simp [weights, lagrangeWeights]

end accepted

/-- Settles O50: the points are distinct, so no denominator is zero, and not zero, so no numerator is. -/
theorem weightDenominatorsAreNeverZero : Obligations.WeightDenominatorsAreNeverZero := by
  refine fun s lc h => ⟨h.weightTrap_eq_none, fun w hw => ?_⟩
  obtain ⟨i, hi, rfl⟩ := List.mem_map.1 hw
  exact gquot_ne_zero (weightNum_ne_zero h.xCoords_ne_zero i)
    (weightDen_ne_zero h.xCoords_nodup (List.mem_range.1 hi))

/-! ### LWGT (R217) -/

theorem exec_lwgt_of_accepted {s : State} (h : s.LwgtAccepted) :
    exec .lwgt s = .next (s.writeBytes s.wAddr.toNat s.weights).advance := by
  have hset : s.ShareSetAccepted true false := And.left h
  rw [exec_lwgt_eq, execLwgt, s.lwgtTrap_eq_none_iff_accepted.2 ⟨h, hset.weightTrap_eq_none⟩]

/-- Settles O47: the weights are written in W, and nothing else is. -/
theorem lwgtWritesTheWeights : Obligations.LwgtWritesTheWeights := by
  refine ⟨inRow_of_wellFormed rfl, fun s h => ?_⟩
  have hset : s.ShareSetAccepted true false := And.left h
  refine ⟨_, exec_lwgt_of_accepted h, fun i hi => ?_, by simp [completed_iff], State.elem_congr (by simp),
    ⟨⟨rfl, rfl, rfl, rfl, rfl, rfl, rfl⟩, rfl, rfl⟩, fun a ha => ?_⟩
  · rw [← s.xCoords_eq]
    exact hset.gdiv_eq_weight hi
  · exact s.readByte_writeBytes_region (r := s.weightRegion) s.weights_length (ha _ (.head _))

/-! ### The combination (R216) -/

/-- The combination with the weights that `t` holds, share by share. -/
theorem State.combine_readBytes (s t : State) (pos : Nat) :
    combine (s.shareSet.map fun d => s.readByte (d.ptr.toNat + pos)) (t.readBytes s.wAddr.toNat s.count.toNat) =
      (List.range s.count.toNat).foldl (fun acc i => acc ^^^ gmul
        (s.readByte ((s.read32 (s.descAddr.toNat + 8 * i + 4)).toNat + pos)) (t.readByte (s.wAddr.toNat + i))) 0 := by
  rw [combine, shareSet, readBytes, List.map_map, List.zip_map', List.foldl_map]
  rfl

/-- SEC_LEN holds a share length in full (R216). -/
theorem toNat_setWidth_shareLen (s : State) : (s.shareLen.setWidth 32).toNat = s.shareLen.toNat :=
  BitVec.toNat_setWidth_of_le (by decide)

theorem State.writeRecovered_readByte (s : State) (out : List Byte) (len : BitVec 16) (a : Nat) :
    (s.writeRecovered out len).readByte a = (s.writeBytes s.secAddr.toNat out).readByte a := rfl

/-! ### LCOMB (R218) -/

/-- LCOMB's state when its checks pass (R218). -/
def State.lcombDone (s : State) : State := (s.writeRecovered (s.recovered s.storedWeights) s.shareLen).advance

theorem exec_lcomb_of_accepted {s : State} (h : s.CombineAccepted false) : exec .lcomb s = .next s.lcombDone := by
  rw [exec_lcomb_eq, execLcomb, s.lcombTrap_eq_none_iff_accepted.2 h]
  rfl

theorem State.lcombDone_readByte {s : State} {pos : Nat} (hpos : pos < s.shareLen.toNat) :
    s.lcombDone.readByte (s.secAddr.toNat + pos) =
      combine (s.shareSet.map fun d => s.readByte (d.ptr.toNat + pos)) s.storedWeights := by
  refine (s.readByte_writeBytes_inside s.secAddr.toNat (s.recovered s.storedWeights) (by simpa using hpos)).trans ?_
  simp only [recovered, List.getElem_map, List.getElem_range]

/-- Settles O48: the combination is written in SEC, and its length in SEC_LEN. -/
theorem lcombCombinesWithTheStoredWeights : Obligations.LcombCombinesWithTheStoredWeights := by
  refine ⟨inRow_of_wellFormed rfl, fun s h => ?_⟩
  refine ⟨s.lcombDone, exec_lcomb_of_accepted h, fun pos hpos => ?_, toNat_setWidth_shareLen s, rfl,
    ⟨rfl, rfl, rfl, rfl, rfl, rfl, rfl⟩, by simp [completed_iff, State.lcombDone], fun _ => rfl, fun a ha => ?_⟩
  · exact (State.lcombDone_readByte hpos).trans (s.combine_readBytes s pos)
  · exact s.readByte_writeBytes_region (r := s.recoveredRegion) (s.recovered_length _) (ha _ (.head _))

/-! ### RECOVER (R219) -/

section recover

variable {s : State} (h : s.CombineAccepted true)

include h

/-- The weights stand in W, which SEC does not reach (R215). -/
theorem State.recoverDone_readByte_weight {i : Nat} (hi : i < s.count.toNat) :
    s.recoverDone.readByte (s.wAddr.toNat + i) =
      (s.writeBytes s.wAddr.toNat s.weights).readByte (s.wAddr.toNat + i) := by
  obtain ⟨-, -, -, -, -, hover, -⟩ := h
  have hapart := (overlap_eq_false_iff s.recoveredRegion s.weightRegion).1 hover
  refine (s.writeBytes s.wAddr.toNat s.weights).readByte_writeBytes_region (r := s.recoveredRegion)
    (s.recovered_length _) ((Region.has_eq_false_iff _ _).2 ?_)
  simp only [recoveredRegion_base, recoveredRegion_len, weightRegion_base, weightRegion_len] at hapart ⊢
  omega

theorem State.recoverDone_readBytes_weights :
    s.recoverDone.readBytes s.wAddr.toNat s.count.toNat = s.weights := by
  refine List.ext_getElem (by simp) fun i hi hi' => ?_
  rw [readBytes_length] at hi
  simp only [readBytes, List.getElem_map, List.getElem_range]
  rw [recoverDone_readByte_weight h hi, s.readByte_writeBytes_inside s.wAddr.toNat s.weights hi']

end recover

/-- Outside W and SEC every byte of LMEM is as before. -/
theorem State.recoverDone_sameMemoryOutside (s : State) :
    SameMemoryOutside [s.weightRegion, s.recoveredRegion] s s.recoverDone := by
  intro a ha
  have hsec := (s.writeBytes s.wAddr.toNat s.weights).readByte_writeBytes_region (r := s.recoveredRegion)
    (s.recovered_length s.weights) (ha _ (by simp))
  exact hsec.trans (s.readByte_writeBytes_region (r := s.weightRegion) s.weights_length (ha _ (by simp)))

/-- RECOVER writes no register but PC and SEC_LEN (R219). -/
theorem State.recoverDone_registers (s : State) : s.recoverDone.secLen.toNat = s.shareLen.toNat ∧
    s.recoverDone.count = s.count ∧ SameInputCsrs s s.recoverDone ∧ Completed s s.recoverDone ∧
    SameElements s s.recoverDone :=
  ⟨toNat_setWidth_shareLen s, by simp [recoverDone], by simp [SameInputCsrs, recoverDone],
    by simp [completed_iff, recoverDone], State.elem_congr (by simp [recoverDone])⟩

/-- Settles O49: the weights stand in W after the combination is written in SEC, so it is theirs. -/
theorem recoverWritesWeightsAndSecret : Obligations.RecoverWritesWeightsAndSecret := by
  refine ⟨inRow_of_wellFormed rfl, fun s h => ?_⟩
  have hset := State.CombineAccepted.shareSetAccepted h
  obtain ⟨hsecLen, hcount, hcsrs, hcompleted, helements⟩ := s.recoverDone_registers
  refine ⟨s.recoverDone, exec_recover_of_accepted h, fun i hi => ?_, fun pos hpos => ?_, hsecLen, hcount, hcsrs,
    hcompleted, helements, s.recoverDone_sameMemoryOutside⟩
  · rw [← s.xCoords_eq, State.recoverDone_readByte_weight h hi]
    exact hset.gdiv_eq_weight hi
  · have hcombine := s.combine_readBytes s.recoverDone pos
    rw [State.recoverDone_readBytes_weights h] at hcombine
    exact (State.recoverDone_readByte hpos).trans hcombine

end Sys2Proof.Machine
end

section
/-! SUPPORT. Exceptions (R250 to R265, R273): what raises ERR, what a write of CTRL does, and that START alone leaves
idle. -/

namespace Sys2Proof.Machine

open Host (Outcome)

/-! ### Every command answers -/

/-- All that a command can do: HALT stops, SPLIT requests or goes on at the RNG, and every other command completes or
faults (R24, R130, R250). -/
theorem exec_cases (i : Instr) (s : State) :
    (i = .halt ∧ exec i s = .next { s with busy := false, done := true }) ∨
    (i = .split ∧ s.inflight = none ∧ exec i s = .next s.splitRequest) ∨
    (∃ j, i = .split ∧ s.inflight = some j ∧ exec i s = .next (s.splitAnswer j)) ∨
    CompletesOrFaults s (exec i s) := by
  by_cases hhalt : i = .halt
  · subst hhalt
    exact .inl ⟨rfl, rfl⟩
  by_cases hsplit : i = .split
  · subst hsplit
    cases hjob : s.inflight with
    | none => exact .inr (.inl ⟨rfl, rfl, exec_split_of_none hjob⟩)
    | some j => exact .inr (.inr (.inl ⟨j, rfl, rfl, exec_split_of_some hjob⟩))
  · exact .inr (.inr (.inr (exec_completesOrFaults s hhalt hsplit)))

theorem CompletesOrFaults.answers {s : State} {o : Outcome State Fault Refusal} (h : CompletesOrFaults s o) :
    ∃ t, o = .next t := by
  cases h with
  | completed => exact ⟨_, rfl⟩
  | faulted => exact ⟨_, rfl⟩

/-- Settles O17: each of the four things a command can do is a next state. -/
theorem everyCommandAnswersANextState : Obligations.EveryCommandAnswersANextState := by
  intro i s
  obtain ⟨-, heq⟩ | ⟨-, -, heq⟩ | ⟨j, -, -, heq⟩ | h := exec_cases i s
  · exact ⟨_, heq⟩
  · exact ⟨_, heq⟩
  · exact ⟨_, heq⟩
  · exact h.answers

/-! ### Taking a fault -/

/-- Settles O19: ERR is set, so `irq` rises when ERR_IE is. -/
theorem takingAFaultStopsAndRecords : Obligations.TakingAFaultStopsAndRecords :=
  fun s c info => ⟨faulted_takeFault s ⟨c, info⟩, fun hie => by simp [State.irq, hie]⟩

section raised

variable {s t : State}

/-- `t` is the entry of a fault that a command raises, taken in `s` (R255, R256). -/
def RaisedFrom (s t : State) : Prop :=
  ∃ c info, c ≠ .invalidShareValue ∧ c ≠ .fetchMisaligned ∧ Faulted c info s t

theorem raisedFrom_takeFault {trap : Trap} (h : trap.code.RaisedByCommand) : RaisedFrom s (s.takeFault trap) :=
  ⟨trap.code, trap.info, h.1, h.2, faulted_takeFault s trap⟩

/-- A command that completes leaves ERR alone, so where ERR rises the fault was taken from the state before. -/
theorem CompletesOrFaults.raisedFrom (h : CompletesOrFaults s (.next t)) (hbefore : s.err = false)
    (hafter : t.err = true) : RaisedFrom s t := by
  cases h with
  | completed hc _ =>
    obtain ⟨-, ⟨-, -, herr, -⟩, -⟩ := hc
    simp [herr, hbefore] at hafter
  | faulted hc => exact raisedFrom_takeFault hc

/-- A SPLIT's request raises ERR only by a check that fails (R191). -/
theorem State.splitRequest_raisedFrom (hbefore : s.err = false) (hafter : s.splitRequest.err = true) :
    RaisedFrom s s.splitRequest := by
  rcases s.splitRequest_cases with ⟨trap, htrap, heq⟩ | ⟨-, heq⟩ <;> rw [heq] at hafter ⊢
  · exact raisedFrom_takeFault (RaisesCommandFaults.splitTrap _ _ trap htrap)
  · simp [hbefore] at hafter

/-- A SPLIT at the RNG raises ERR only where the RNG is unavailable, once that answer has been taken (R188; log 3). -/
theorem State.splitAnswer_faulted (j : GenJob) (hbefore : s.err = false) (hafter : (s.splitAnswer j).err = true) :
    Faulted .randomUnavailable (BitVec.ofNat 32 j.coefBytes) s.consumeAnswer (s.splitAnswer j) := by
  rcases s.splitAnswer_cases j with ⟨-, heq⟩ | ⟨r, -, -, heq⟩ | ⟨r, -, -, heq⟩ <;> rw [heq] at hafter ⊢
  · exact faulted_takeFault _ _
  · simp [hbefore] at hafter
  · simp [hbefore] at hafter

end raised

/-- Settles O20: HALT raises no fault, SPLIT raises one at its request or at the RNG, and every other command completes
or faults. -/
theorem faultsArePrecise : Obligations.FaultsArePrecise := by
  intro i s t he hbefore hafter
  obtain ⟨-, heq⟩ | ⟨-, -, heq⟩ | ⟨j, hsplit, hjob, heq⟩ | h := exec_cases i s
  · obtain rfl : { s with busy := false, done := true } = t := Outcome.next.inj (heq.symm.trans he)
    simp [hbefore] at hafter
  · obtain rfl : s.splitRequest = t := Outcome.next.inj (heq.symm.trans he)
    exact .inl (State.splitRequest_raisedFrom hbefore hafter)
  · obtain rfl : s.splitAnswer j = t := Outcome.next.inj (heq.symm.trans he)
    exact .inr ⟨hsplit, j, hjob, State.splitAnswer_faulted j hbefore hafter⟩
  · exact .inl ((he ▸ h).raisedFrom hbefore hafter)

/-! ### A write of CTRL (R31, R262) -/

/-- The two bits that START tests are the address modulo 4. -/
theorem low_bits_eq_zero_iff (w : Word) : w.extractLsb' 0 2 = 0 ↔ w.toNat % 4 = 0 := by
  refine ⟨toNat_mod_four_of_low_bits, fun h => BitVec.eq_of_toNat_eq ?_⟩
  simpa using h

section ctrl

variable {s : State} {v : Word}

theorem State.start_of_busy (hbusy : s.busy = true) : s.start = s := if_pos hbusy

theorem State.start_of_aligned (hidle : s.busy = false) (halign : s.entry.toNat % 4 = 0) : s.start = s.startRun := by
  rw [← low_bits_eq_zero_iff] at halign
  rw [start, if_neg (by simp [hidle]), if_neg (not_not.2 halign)]

theorem State.start_of_misaligned (hidle : s.busy = false) (halign : s.entry.toNat % 4 ≠ 0) :
    s.start = s.startFault := by
  rw [Ne, ← low_bits_eq_zero_iff] at halign
  rw [start, if_neg (by simp [hidle]), if_pos halign]

theorem State.writeCtrl_of_srst (h1 : v.getLsbD 1 = true) : s.writeCtrl v = s.srst := if_pos h1

theorem State.writeCtrl_of_start (h0 : v.getLsbD 0 = true) (h1 : v.getLsbD 1 = false) : s.writeCtrl v = s.start := by
  rw [writeCtrl, if_neg (ne_true_of_eq_false h1), if_pos h0]

theorem State.writeCtrl_of_neither (h0 : v.getLsbD 0 = false) (h1 : v.getLsbD 1 = false) : s.writeCtrl v = s := by
  rw [writeCtrl, if_neg (ne_true_of_eq_false h1), if_neg (ne_true_of_eq_false h0)]

/-- A run begun beyond LMEM faults at its first fetch (R130, R262). -/
theorem State.startRun_beyond_lmem (hsch : s.schedule = []) (hrst : s.rstLow = false) (hjob : s.inflight = none)
    (hout : s.params.lmemBytes ≤ s.entry.toNat) :
    ∃ t, step s.startRun = .next t ∧ Faulted .fetchRange s.entry s.startRun t :=
  fetchOutsideLmemFaults s.startRun ⟨hsch, hrst, rfl, hjob⟩ (by rw [startRun_params, startRun_pc]; omega)

end ctrl

/-- Settles O58: the two bits of CTRL, and then START by BUSY and by the alignment of ENTRY. -/
theorem startBeginsARunOrFaults : Obligations.StartBeginsARunOrFaults := by
  intro s v
  rw [s.csrWrite_ctrl v]
  refine ⟨rfl, fun h1 => ?srst, fun h0 h1 => ?neither, fun h0 h1 => ?start⟩
  case srst => rw [State.writeCtrl_of_srst h1]
  case neither => rw [State.writeCtrl_of_neither h0 h1]
  case start =>
    rw [State.writeCtrl_of_start h0 h1]
    refine ⟨fun hbusy => ?_, fun hidle halign => ?_, fun hidle halign => ?_, State.startRun_beyond_lmem⟩
    · rw [State.start_of_busy hbusy]
    · rw [State.start_of_aligned hidle halign]
      rfl
    · rw [State.start_of_misaligned hidle halign]
      rfl

/-! ### Leaving idle (R261, R273) -/

/-- Writing `data` to CTRL in `s` is a START that succeeds, and `t` is at its first command (R31, R262). -/
structure StartedBy (data : Word) (s t : State) : Prop where
  start : data.getLsbD 0 = true
  noSrst : data.getLsbD 1 = false
  aligned : s.entry.toNat % 4 = 0
  pc : t.pc = s.entry

@[simp] theorem State.srstAborting_busy (s : State) (outputs : List Region) : (s.srstAborting outputs).busy = false := rfl

@[simp] theorem State.srst_busy (s : State) : s.srst.busy = false := by
  obtain ⟨outputs, heq⟩ := s.srst_eq_srstAborting
  rw [heq, srstAborting_busy]

@[simp] theorem State.srstInFlight_busy (s : State) : s.srstInFlight.busy = false := by
  obtain ⟨outputs, heq⟩ := s.srstInFlight_eq_srstAborting
  rw [heq, srstAborting_busy]

/-- An address in the window is BLOCK_BASE and its offset (R77). -/
theorem State.windowOffset_eq_some {s : State} {addr off : Nat} (h : s.windowOffset addr = some off) :
    addr = s.params.blockBase + off := by
  unfold windowOffset at h
  split at h
  · have hoff := Option.some.inj h
    omega
  · cases h

section idle

variable {s t : State} (hidle : s.busy = false)

include hidle

/-- The engine runs after a write of CTRL only when that was a START with an aligned ENTRY. -/
theorem State.writeCtrl_startedBy {v : Word} (hrun : (s.writeCtrl v).busy = true) : StartedBy v s (s.writeCtrl v) := by
  cases h1 : v.getLsbD 1 with
  | true => simp [writeCtrl_of_srst h1] at hrun
  | false =>
    cases h0 : v.getLsbD 0 with
    | false => simp [writeCtrl_of_neither h0 h1, hidle] at hrun
    | true =>
      rw [writeCtrl_of_start h0 h1] at hrun ⊢
      by_cases halign : s.entry.toNat % 4 = 0
      · exact ⟨h0, h1, halign, by rw [start_of_aligned hidle halign, startRun_pc]⟩
      · simp [start_of_misaligned hidle halign, hidle] at hrun

/-- Of the CSRs only CTRL can make the engine run. -/
theorem State.csrWrite_startedBy {n : Nat} {v : Word} (hw : s.csrWrite n v = some t) (hrun : t.busy = true) :
    n = 1 ∧ StartedBy v s t := by
  obtain rfl | rfl | rfl | rfl | hn | hn : n = 1 ∨ n = 2 ∨ n = 3 ∨ n = 4 ∨ (8 ≤ n ∧ n ≤ 16) ∨
    (n = 0 ∨ (5 ≤ n ∧ n ≤ 7) ∨ 17 ≤ n) := by omega
  · obtain rfl : s.writeCtrl v = t := Option.some.inj hw
    exact ⟨rfl, writeCtrl_startedBy hidle hrun⟩
  · obtain rfl : s.writeStatus v = t := Option.some.inj hw
    simp [writeStatus, hidle] at hrun
  · obtain rfl : s.writeIrqen v = t := Option.some.inj hw
    simp [writeIrqen, hidle] at hrun
  · rw [csrWrite_entry, if_neg (by simp [hidle])] at hw
    obtain rfl : { s with entry := v } = t := Option.some.inj hw
    simp [hidle] at hrun
  · rw [s.csrWrite_param v hn, if_neg (by simp [hidle])] at hw
    obtain rfl : s.setParam n v = t := Option.some.inj hw
    simp [hidle] at hrun
  · obtain rfl : s = t := Option.some.inj ((s.csrWrite_ignored v hn).symm.trans hw)
    simp [hidle] at hrun

/-- Of the host's writes only the one of the word at offset 4 can make the engine run (R26, R80). -/
theorem State.hostWrite_startedBy {off : Nat} {w : HostWidth} {data : Word} (hw : s.hostWrite off w data = some t)
    (hrun : t.busy = true) : off = 4 ∧ w = .four ∧ StartedBy data s t := by
  unfold hostWrite at hw
  split at hw
  · split at hw
    · next hok =>
      obtain ⟨hfour, hal⟩ := (hostCsrOk_iff off w).1 hok
      obtain ⟨hctrl, hstart⟩ := csrWrite_startedBy hidle hw hrun
      exact ⟨by omega, hfour, hstart⟩
    · cases hw
  split at hw
  · split at hw
    · cases hw
      simp [memWrite, hidle] at hrun
    · cases hw
  · cases hw

/-- Of the host's accesses only the write of START to CTRL makes the engine run. -/
theorem State.hostAccess_startedBy {op : HostOp} (hrun : (s.hostAccess op).busy = true) :
    ∃ data, op = .write (s.params.blockBase + 4) .four data ∧ StartedBy data s (s.hostAccess op) := by
  cases op with
  | read addr w =>
    cases hoff : s.windowOffset addr <;> simp [hostAccess, hoff, hidle] at hrun
  | write addr w data =>
    cases hoff : s.windowOffset addr with
    | none => simp [hostAccess, hoff, hidle] at hrun
    | some off =>
      cases hw : s.hostWrite off w data with
      | none => simp [hostAccess, hoff, hw, hidle] at hrun
      | some u =>
        have heq : s.hostAccess (.write addr w data) = u.respond ⟨true, 0⟩ := by simp only [hostAccess, hoff, hw]
        rw [heq, respond_busy] at hrun
        obtain ⟨rfl, rfl, hstart⟩ := hostWrite_startedBy hidle hw hrun
        rw [heq, windowOffset_eq_some hoff]
        exact ⟨data, rfl, { hstart with }⟩

/-- Of the events only the host's write of START makes the engine run. -/
theorem handleEvent_startedBy {ev : Event} (he : handleEvent ev s = .next t) (hrun : t.busy = true) :
    ∃ data, ev = .host (.write (s.params.blockBase + 4) .four data) ∧ StartedBy data s t := by
  cases ev with
  | engine =>
    obtain rfl : s = t := Outcome.next.inj ((engineTurn_of_idle hidle).symm.trans he)
    simp [hidle] at hrun
  | host op =>
    obtain ⟨-, rfl⟩ := State.hostEvent_eq_next he
    obtain ⟨data, rfl, hstart⟩ := State.hostAccess_startedBy hidle hrun
    exact ⟨data, rfl, hstart⟩
  | srstInFlight =>
    obtain ⟨-, rfl⟩ := State.hostEvent_eq_next he
    simp at hrun
  | rstLow =>
    obtain rfl : s.rstAssert = t := Outcome.next.inj he
    simp [State.rstAssert] at hrun
  | rstHigh =>
    obtain rfl : s.rstRelease = t := Outcome.next.inj he
    simp [State.rstRelease, hidle] at hrun

end idle

/-- Settles O13: an idle engine's turn changes nothing, so the step was an event, and of those only START makes it run. -/
theorem onlyStartLeavesIdle : Obligations.OnlyStartLeavesIdle := by
  have rests (s : State) (hidle : s.busy = false) (hsch : s.schedule = []) : step s = .next s := by
    rw [step_of_nil hsch, engineTurn_of_idle hidle]
  refine ⟨rests, fun s t hidle he hrun => ?_⟩
  cases hsch : s.schedule with
  | nil =>
    obtain rfl : s = t := Outcome.next.inj ((rests s hidle hsch).symm.trans he)
    simp [hidle] at hrun
  | cons ev rest =>
    obtain ⟨data, rfl, hstart⟩ := handleEvent_startedBy (s := s.setSchedule rest) hidle (step_of_cons hsch ▸ he) hrun
    exact ⟨data, rest, rfl, hstart.start, hstart.noSrst, hstart.aligned, hstart.pc⟩

end Sys2Proof.Machine
end

section
/-! SUPPORT. The resets (R263, R290, R291, R299): what both leave, and what an abort draws; the wait of a SPLIT (R300);
and the one refusal of a step. -/

namespace Sys2Proof.Machine

open Host (Outcome)

/-! ### What both resets leave (R291) -/

@[simp] theorem State.statusWord_resetRegisters (s : State) : s.resetRegisters.statusWord = 0 := by
  simp [State.statusWord, State.rngWait, placeField]

@[simp] theorem State.irqenWord_resetRegisters (s : State) : s.resetRegisters.irqenWord = 0 := by
  simp [State.irqenWord, placeField]

/-- After a reset of the registers every CSR but ID and LMEMSZ reads 0, and so do the reserved indices and the element
views (R26, R291). -/
theorem State.csrRead_resetRegisters (s : State) {n : Nat} (hid : n ≠ 0) (hsize : n ≠ 17) :
    s.resetRegisters.csrRead n = 0 := by
  by_cases hn : n ≤ 17
  · interval_cases n <;> simp [State.csrRead] at hid hsize ⊢
  · rw [State.csrRead_of_ge _ (by omega)]
    simp [State.elem]

theorem registersReset_resetRegisters (s : State) : RegistersReset s.resetRegisters :=
  ⟨fun r => by simp [State.elem], rfl, rfl, rfl, s.statusWord_resetRegisters, rfl, rfl, rfl,
    fun _ => s.csrRead_resetRegisters⟩

/-- LMEMSZ reads the same in states with the same parameters (R47). -/
theorem State.csrRead_lmemBytes_congr {s t : State} (h : t.params = s.params) : t.csrRead 17 = s.csrRead 17 :=
  congrArg (fun p : Config.Params => BitVec.ofNat 32 p.lmemBytes) h

/-! ### What an SRST leaves (R263, R299) -/

/-- What a byte reads after regions are drawn: the draw in each region and LMEM, else as before (R299). -/
theorem State.readByte_foldl_drawRegion (rs : List Region) (s : State) (a : Nat) :
    (rs.foldl State.drawRegion s).readByte a =
      if a < s.params.lmemBytes ∧ rs.any (fun r => r.has a) = true then Config.abortDraw s.draws a
      else s.readByte a := by
  induction rs generalizing s with
  | nil => simp
  | cons r rs ih =>
    have hdrawn : (rs.foldl State.drawRegion (s.drawRegion r)).readByte a =
        if a < s.params.lmemBytes ∧ rs.any (fun r => r.has a) = true then Config.abortDraw s.draws a
        else (s.drawRegion r).readByte a := ih (s.drawRegion r)
    rw [List.foldl_cons, hdrawn, State.readByte_drawRegion, List.any_cons]
    by_cases hlt : a < s.params.lmemBytes <;> cases r.has a <;> simp [hlt]

theorem aborted_srstAborting (s : State) (outputs : List Region) : Aborted outputs s (s.srstAborting outputs) := by
  refine ⟨registersReset_resetRegisters _, ?_, ?_, s.readByte_foldl_drawRegion outputs⟩ <;>
    obtain ⟨m, heq⟩ := s.srstAborting_eq outputs <;> rw [heq]
  · exact ⟨rfl, rfl, rfl, rfl, rfl⟩
  · rfl

theorem Aborted.sameMemory {s t : State} (h : Aborted [] s t) : SameMemory s t := by
  obtain ⟨-, -, -, hmem⟩ := h
  exact fun a => by simpa using hmem a

section srst

variable {s : State}

theorem State.srst_of_none (hjob : s.inflight = none) : s.srst = s.srstAborting [] := by simp [srst, hjob]

theorem State.srst_of_some {j : GenJob} (hjob : s.inflight = some j) : s.srst = s.srstAborting j.splitOutputs := by
  simp [srst, hjob]

theorem State.srstInFlight_of_fetch {i : Instr} (hbusy : s.busy = true) (hjob : s.inflight = none)
    (hf : s.fetch = .ok i) : s.srstInFlight = s.srstAborting (s.outputRegions i) := by
  simp [srstInFlight, hbusy, hjob, hf]

/-- Where there is no command to abort an SRST in flight is an SRST (log 6). -/
theorem State.srstInFlight_eq_srst (h : s.busy = true → s.inflight = none → ∀ i, s.fetch ≠ .ok i) :
    s.srstInFlight = s.srst := by
  unfold srstInFlight
  split
  · next i hjob hbusy hf => exact absurd hf (h hbusy hjob i)
  · rfl

/-- A command that writes at most one byte of LMEM has no output region (R299). -/
theorem State.outputRegions_eq_nil {i : Instr} (h : i ∉ [Instr.eval, .split, .lwgt, .lcomb, .recover]) :
    s.outputRegions i = [] := by
  cases i with
  | eval | split | lwgt | lcomb | recover => simp at h
  | _ => rfl

/-- The length of SEC is the field of record 0, where COUNT and LMEM give a record 0 to read (R212; log 6). -/
theorem State.outputLen_eq (s : State) : s.outputLen =
    if 0 < s.count.toNat ∧ s.descAddr.toNat + 4 ≤ s.params.lmemBytes then (s.read16 (s.descAddr.toNat + 2)).toNat
    else 0 :=
  if_congr (and_congr_right fun _ => s.inRange_iff _ _) rfl rfl

end srst

/-! ### The statements about the resets -/

/-- Settles O15: the reset engine is idle without a fault, and its LMEM is empty. -/
theorem resetHasTheInvariant : Obligations.ResetHasTheInvariant := .of_clean (.nil _) rfl rfl rfl rfl

/-- Settles O16: each of the three states is a reset of the registers; what `rst_n` changes beside stands in its
definition, and every SRST is one that aborts some command. -/
theorem bothResetsSetEveryRegister : Obligations.BothResetsSetEveryRegister := by
  refine ⟨registersReset_resetRegisters State.reset, fun s => ?rstn, fun s => ?srst⟩
  case rstn =>
    exact ⟨registersReset_resetRegisters { s with mem := [], epoch := s.epoch + 1, rstLow := true, hostResp := none },
      fun _ => rfl, rfl, rfl, rfl, rfl, rfl, rfl, rfl⟩
  case srst =>
    obtain ⟨outputs, heq⟩ := s.srst_eq_srstAborting
    obtain ⟨hregs, hsame, hscript, -⟩ : Aborted outputs s s.srst := heq ▸ aborted_srstAborting s outputs
    refine ⟨hregs, State.csrRead_lmemBytes_congr hsame.1, hsame, hscript, fun hjob => ?_⟩
    rw [State.srst_of_none hjob]
    exact (aborted_srstAborting s []).sameMemory

/-- Settles O59: every SRST is one that aborts a command with some output regions, and those are the regions of the
command in flight. -/
theorem softResetChangesOnlyAbortedOutputs : Obligations.SoftResetChangesOnlyAbortedOutputs := by
  refine ⟨fun s hjob => ?none, fun s j hjob => ?waiting, fun s i hbusy hjob hf => ?command,
    fun s h => State.srstInFlight_eq_srst h⟩
  case none =>
    rw [State.srst_of_none hjob]
    exact ⟨aborted_srstAborting s [], (aborted_srstAborting s []).sameMemory⟩
  case waiting =>
    rw [State.srst_of_some hjob]
    exact aborted_srstAborting s j.splitOutputs
  case command =>
    intro C O D W SEC
    have hsec : SEC = ⟨s.secAddr.toNat, s.outputLen⟩ := by rw [s.outputLen_eq]
    rw [State.srstInFlight_of_fetch hbusy hjob hf, hsec]
    have haborted := aborted_srstAborting s (s.outputRegions i)
    refine ⟨fun hplain => ?_, ?_, ?_, ?_, ?_, ?_⟩
    · rwa [State.outputRegions_eq_nil hplain] at haborted ⊢
    all_goals
      rintro rfl
      exact haborted

/-! ### The wait of a SPLIT (R188, R300) -/

/-- A SPLIT waits on the RNG, and the next step is the engine's. -/
structure State.WaitsOn (s : State) (j : GenJob) : Prop where
  schedule : s.schedule = []
  rstHigh : s.rstLow = false
  busy : s.busy = true
  job : s.inflight = some j

theorem State.WaitsOn.consumeAnswer {s : State} {j : GenJob} (h : s.WaitsOn j) : s.consumeAnswer.WaitsOn j := { h with }

/-- The message is none of the answers to the request `fill(K)` (R188; log 3). -/
def NoAnswer (j : GenJob) (a : Config.RngAnswer) : Prop := ∃ r, a = .bytes r ∧ r.length ≠ j.coefBytes

/-- A message of the script that is no answer is taken off it, and that is all (log 3). -/
theorem State.WaitsOn.step_of_noAnswer {s : State} {j : GenJob} (h : s.WaitsOn j) {a : Config.RngAnswer}
    {rest : List Config.RngAnswer} (hscript : s.rngScript = a :: rest) (ha : NoAnswer j a) :
    step s = .next s.consumeAnswer := by
  obtain ⟨r, rfl, hlen⟩ := ha
  have hans : s.rngAnswer = .bytes r := by rw [rngAnswer, hscript]
  rw [step_of_nil h.schedule, engineTurn_of_waiting h.rstHigh h.busy h.job, exec_split_of_some h.job, splitAnswer, hans]
  exact congrArg Outcome.next (if_neg hlen)

/-- The state with `k` messages taken off the RNG's port. -/
def State.dropAnswers (s : State) (k : Nat) : State :=
  { s with rngScript := s.rngScript.drop k, draws := s.draws + k }

theorem State.dropAnswers_succ (s : State) (k : Nat) : s.dropAnswers (k + 1) = s.consumeAnswer.dropAnswers k := by
  simp only [dropAnswers, consumeAnswer, List.drop_tail, Nat.add_comm k 1, Nat.add_assoc]

/-- Through `k` messages that are no answer the machine takes them off the script, and nothing else happens. -/
theorem State.WaitsOn.run_of_noAnswer {j : GenJob} {k : Nat} {s : State} (h : s.WaitsOn j) (hk : k ≤ s.rngScript.length)
    (hans : ∀ a ∈ s.rngScript.take k, NoAnswer j a) : Sys2Proof.core.run k s = .next (s.dropAnswers k) := by
  induction k generalizing s with
  | zero => rfl
  | succ k ih =>
    cases hscript : s.rngScript with
    | nil => simp [hscript] at hk
    | cons a rest =>
      have htail : s.consumeAnswer.rngScript = rest := by simp [hscript]
      simp only [hscript, List.length_cons, List.take_succ_cons, List.forall_mem_cons] at hk hans
      obtain ⟨ha, hrest⟩ := hans
      rw [core_run_succ k (h.step_of_noAnswer hscript ha), s.dropAnswers_succ]
      exact ih h.consumeAnswer (by rw [htail]; omega) (by rwa [htail])

/-- Settles O44: after `k` messages that are no answer the state differs in the RNG's own fields alone. -/
theorem splitWaitsUntilAnAnswer : Obligations.SplitWaitsUntilAnAnswer := by
  intro k s j hsch hrst hbusy hjob hk hans
  have hwaits : s.WaitsOn j := ⟨hsch, hrst, hbusy, hjob⟩
  have hwait : (s.dropAnswers k).rngWait = true := Option.isSome_of_mem hjob
  exact ⟨s.dropAnswers k, hwaits.run_of_noAnswer hk hans, hjob, hwait, rfl, ⟨rfl, rfl, rfl, rfl, rfl⟩,
    ⟨rfl, rfl, rfl, rfl, rfl⟩, fun _ => rfl, ⟨⟨rfl, rfl, rfl, rfl, rfl, rfl, rfl⟩, rfl, rfl⟩, fun _ => rfl,
    ⟨rfl, rfl, rfl, rfl, rfl⟩⟩

/-! ### The refusal (R290; log 10) -/

/-- The engine's turn is never refused: every command answers (R130, R250). -/
theorem engineTurn_answers (s : State) : ∃ t, engineTurn s = .next t := by
  obtain ⟨-, heq⟩ | ⟨-, -, -, heq⟩ | ⟨-, -, -, i, -, heq⟩ | ⟨-, -, -, trap, -, heq⟩ := engineTurn_cases s
  · exact ⟨s, heq⟩
  · exact heq ▸ everyCommandAnswersANextState .split s
  · exact heq ▸ everyCommandAnswersANextState i s
  · exact ⟨_, heq⟩

/-- A host event answers, or `rst_n` is low and it is refused (log 10). -/
theorem State.hostEvent_cases (s after : State) :
    s.hostEvent after = .next after ∨ (s.hostEvent after = .refused .hostAccessInReset ∧ s.rstLow = true) := by
  unfold hostEvent
  split
  · next hlow => exact .inr ⟨rfl, hlow⟩
  · exact .inl rfl

/-- An event answers, or it is one of the host's while `rst_n` is low. -/
theorem handleEvent_answers_or_refused (ev : Event) (s : State) : (∃ t, handleEvent ev s = .next t) ∨
    (handleEvent ev s = .refused .hostAccessInReset ∧ s.rstLow = true ∧ (ev = .srstInFlight ∨ ∃ op, ev = .host op)) := by
  cases ev with
  | engine => exact .inl (engineTurn_answers s)
  | host op =>
    obtain heq | ⟨heq, hlow⟩ := s.hostEvent_cases (s.hostAccess op)
    · exact .inl ⟨_, heq⟩
    · exact .inr ⟨heq, hlow, .inr ⟨op, rfl⟩⟩
  | srstInFlight =>
    obtain heq | ⟨heq, hlow⟩ := s.hostEvent_cases (s.srstInFlight.respond ⟨true, 0⟩)
    · exact .inl ⟨_, heq⟩
    · exact .inr ⟨heq, hlow, .inl rfl⟩
  | rstLow => exact .inl ⟨_, rfl⟩
  | rstHigh => exact .inl ⟨_, rfl⟩

/-- Settles O18: the engine's turn answers, and of the events only the host's can be refused. -/
theorem onlyHostAccessInResetIsRefused : Obligations.OnlyHostAccessInResetIsRefused := by
  intro s
  cases hsch : s.schedule with
  | nil => exact .inl (step_of_nil hsch ▸ engineTurn_answers s)
  | cons ev rest =>
    rw [step_of_cons hsch]
    obtain hnext | ⟨hrefused, hlow, hev⟩ := handleEvent_answers_or_refused ev (s.setSchedule rest)
    · exact .inl hnext
    · exact .inr ⟨hrefused, hlow, ev, rest, rfl, hev⟩

end Sys2Proof.Machine
end
